-- ==== Sys2Proof/Word.lean ====
section
/-! DEFINITION. The two word types of the block: the byte (00_scope.md R7) and the 9-bit body count (R6, R112). -/

namespace Sys2Proof

/-- An unsigned 8-bit value, bit 7 the most significant (R7). -/
abbrev Byte := BitVec 8

/-- The width of `body_size = length + 1`, range 1 to 256 (R6 `BODY_SIZE_WIDTH`, R25). -/
abbrev BodySize := BitVec 9

end Sys2Proof
end

