-- ==== Sys2Proof/Config.lean ====
section
/-! DEFINITION. The protocol constants of 00_scope.md R5 and the parameters the spec adds in R6: fixed configuration, never state. -/

namespace Sys2Proof.Config

/-- `PREAMBLE1` (R5). -/
abbrev preamble1 : Byte := 0x55

/-- `PREAMBLE2` (R5). -/
abbrev preamble2 : Byte := 0xAA

/-- `POLY`, XORed in after a shift that drops a 1 (R5, R81). -/
abbrev poly : Byte := 0x07

/-- `CRC_INIT`, the accumulator's value at the start of a computation (R5, R80). -/
abbrev crcInit : Byte := 0x00

/-- `CRC_XOROUT`: "no final XOR" (R5, R83). -/
abbrev crcXorOut : Byte := 0x00

/-- `CRC_REFLECT`: "No input/output reflection" (R5, R82). -/
abbrev crcReflect : Bool := false

/-- `CRC_WIDTH`: the accumulator has 8 bits (R5). -/
abbrev crcWidth : Nat := 8

/-- `MAX_PAYLOAD`, the largest payload the encoder accepts (R5, R101). -/
abbrev maxPayload : Nat := 64

/-- `HEADER_BYTES`: `message_id` then `length` (R5, R119). -/
abbrev headerBytes : Nat := 2

/-- `OVERHEAD_BYTES`: two preamble, two header, one checksum byte (R5, R60). -/
abbrev overheadBytes : Nat := 5

/-- `DEC_LENGTH_MAX`: the decoder follows every received `length` (R6, R69). -/
abbrev decLengthMax : Nat := 255

/-- `DEC_BUF_BYTES`, the capacity of the decoder's assembly buffer (R6, R26). -/
abbrev decBufBytes : Nat := 256

/-- The two resynchronisation policies of SeekPreamble2 that the source's design notes name (R115). -/
inductive ResyncPolicy where
  | reexamine
  | discard
  deriving DecidableEq, Repr

/-- `RESYNC_POLICY` (R6, R115, 90_conflicts.md C1): re-examine the byte as a candidate `PREAMBLE1`. -/
def resyncPolicy : ResyncPolicy := .reexamine

/-- `timeout_policy` (R6, R143): the two named readings of "a bounded wait elapsed".
The spec leaves it OPEN: it is an argument of the byte source, never fixed here. -/
inductive TimeoutPolicy where
  | onEmptyRead
  | onShortRead
  deriving DecidableEq, Repr

end Sys2Proof.Config
end

