-- ==== Sys2Proof/Syntax.lean ====
section
/-! DEFINITION. The operations of the block (one constructor per row of spec/opcode_table.json) and the values its interfaces carry (20_memory.md R40 to R43). -/

namespace Sys2Proof

/-- The three agents (10_state.md R20). -/
inductive Agent where
  | crc
  | enc
  | dec
  deriving DecidableEq, Repr

/-- One constructor per row of the opcode table.
A byte operand that the row fixes (0x55 or 0xAA) is not repeated as an argument. -/
inductive Instr where
  /-- FRAME (R60): one whole frame on the wire, offset 2 first; offsets 0 and 1 are constant. -/
  | frame (messageId length : Byte) (payload : List Byte) (checksum : Byte)
  /-- CRC.CLEAR (R80). -/
  | crcClear
  /-- CRC.BIT (R81). -/
  | crcBit
  /-- CRC.BYTE (R82). -/
  | crcByte (b : Byte)
  /-- CRC.SEQ (R83). -/
  | crcSeq (s : List Byte)
  /-- ENC.ENCODE (R100). -/
  | encEncode (messageId : Byte) (payload : List Byte)
  /-- DEC.FEED.S1.P1 (R113), operand `Byte(0x55)`. -/
  | decFeedS1P1
  /-- DEC.FEED.S1.OTHER (R114). -/
  | decFeedS1Other (b : Byte)
  /-- DEC.FEED.S2.P2 (R116), operand `Byte(0xAA)`. -/
  | decFeedS2P2
  /-- DEC.FEED.S2.P1 (R117), operand `Byte(0x55)`. -/
  | decFeedS2P1
  /-- DEC.FEED.S2.OTHER (R118). -/
  | decFeedS2Other (b : Byte)
  /-- DEC.FEED.HDR.ID (R119). -/
  | decFeedHdrId (b : Byte)
  /-- DEC.FEED.HDR.LEN (R120). -/
  | decFeedHdrLen (b : Byte)
  /-- DEC.FEED.BODY.MORE (R121). -/
  | decFeedBodyMore (b : Byte)
  /-- DEC.FEED.BODY.EMIT (R122). -/
  | decFeedBodyEmit (b : Byte)
  /-- DEC.FEED.BODY.REJECT (R123). -/
  | decFeedBodyReject (b : Byte)
  /-- DEC.TIMEOUT.S1 (R127). -/
  | decTimeoutS1
  /-- DEC.TIMEOUT.S2 (R128). -/
  | decTimeoutS2
  /-- DEC.TIMEOUT.HDR (R129). -/
  | decTimeoutHdr
  /-- DEC.TIMEOUT.BODY (R130). -/
  | decTimeoutBody
  /-- DEC.RESET (R132). -/
  | decReset
  /-- DEC.FEEDN (R131). -/
  | decFeedn (s : List Byte)
  deriving DecidableEq, Repr

/-- The agent that owns an operation (the `agent` column of R67).
A frame on the wire is met by the decoder. -/
def Instr.agent : Instr → Agent
  | .frame _ _ _ _ => .dec
  | .crcClear => .crc
  | .crcBit => .crc
  | .crcByte _ => .crc
  | .crcSeq _ => .crc
  | .encEncode _ _ => .enc
  | .decFeedS1P1 => .dec
  | .decFeedS1Other _ => .dec
  | .decFeedS2P2 => .dec
  | .decFeedS2P1 => .dec
  | .decFeedS2Other _ => .dec
  | .decFeedHdrId _ => .dec
  | .decFeedHdrLen _ => .dec
  | .decFeedBodyMore _ => .dec
  | .decFeedBodyEmit _ => .dec
  | .decFeedBodyReject _ => .dec
  | .decTimeoutS1 => .dec
  | .decTimeoutS2 => .dec
  | .decTimeoutHdr => .dec
  | .decTimeoutBody => .dec
  | .decReset => .dec
  | .decFeedn _ => .dec

/-- What the environment presents to the block, one value per step (R40; the `input` of R74).
The block has no instruction words: an operation is selected by the kind of input, the decoder's mode and the byte (R66, R67). -/
inductive Input where
  /-- RX item `Byte(b)` (R41). -/
  | byte (b : Byte)
  /-- RX item `Timeout` (R41). -/
  | timeout
  /-- Decoder control `Reset` (R40, R132). -/
  | reset
  /-- One feed call with a chunk of zero or more bytes (R51, R131). -/
  | chunk (s : List Byte)
  /-- Bytes on the wire, delivered in one feed call: one whole frame (R60) or any other bytes (R70, R131; log 4). -/
  | wire (bytes : List Byte)
  /-- The encoder's request (R43). -/
  | encode (messageId : Byte) (payload : List Byte)
  /-- CRC.CLEAR of an incremental engine (R21, R80). -/
  | crcClear
  /-- CRC.BIT of an incremental engine (R21, R81). -/
  | crcBit
  /-- CRC.BYTE of an incremental engine (R21, R82). -/
  | crcByte (b : Byte)
  /-- The checksum argument (R40, R83). -/
  | crcSeq (s : List Byte)
  deriving DecidableEq, Repr

/-- The agent an input is presented to (the `agent` column of R40). -/
def Input.agent : Input → Agent
  | .byte _ => .dec
  | .timeout => .dec
  | .reset => .dec
  | .chunk _ => .dec
  | .wire _ => .dec
  | .encode _ _ => .enc
  | .crcClear => .crc
  | .crcBit => .crc
  | .crcByte _ => .crc
  | .crcSeq _ => .crc

/-- The bytes an input delivers to the decoder, in order (R41, R131); an input that is no delivery of bytes gives none. -/
def Input.delivered : Input → List Byte
  | .byte b => [b]
  | .timeout => []
  | .reset => []
  | .chunk s => s
  | .wire bytes => bytes
  | .encode _ _ => []
  | .crcClear => []
  | .crcBit => []
  | .crcByte _ => []
  | .crcSeq _ => []

/-- Why a byte sequence is not one frame of R60: the first offset that disagrees with the wire format.
No step stops on it: such bytes are fed like any others (R70, R131). -/
inductive FrameReject where
  /-- Offset 0 is absent or is not `PREAMBLE1`. -/
  | preamble1Missing
  /-- Offset 1 is absent or is not `PREAMBLE2`. -/
  | preamble2Missing
  /-- The sequence ends before offset 4. -/
  | headerCut
  /-- The sequence ends before offset `5 + length`. -/
  | bodyCut
  /-- Bytes follow offset `4 + length`. -/
  | bytesAfterFrame
  deriving DecidableEq, Repr

/-- The closed type of events (R42, R154). -/
inductive Event where
  | frame (messageId : Byte) (payload : List Byte)
  | checksumMismatch (messageId length expected received : Byte)
  | incompletePacket
  deriving DecidableEq, Repr

/-- The closed type of encode-time errors (R151, R154). -/
inductive EncodeError where
  | payloadTooLarge
  deriving DecidableEq, Repr

/-- The encoder's response (R43): `Ok(bytes)` or `Err(PayloadTooLarge)` with no bytes. -/
inductive EncodeResponse where
  | ok (bytes : List Byte)
  | err (e : EncodeError)
  deriving DecidableEq, Repr

end Sys2Proof
end

