-- ==== Sys2Proof/Machine/State.lean ====
section
/-! DEFINITION. The state of the block as plain data (10_state.md R20 to R36), what stops a step, and the state after reset (R34). -/

namespace Sys2Proof.Machine

/-- `dec.mode`: the four stored modes (R22).
`Emit` and `Reject` are passed through inside a step and are never stored. -/
inductive Mode where
  | seekPreamble1
  | seekPreamble2
  | readHeader
  | readBody
  deriving DecidableEq, Repr

/-- The decoder's whole state, the tagged value of R27.
`dec.hdr` lives in `readHeader`; `dec.message_id`, `dec.length` and `dec.body` live in `readBody`; `dec.body_size` and `dec.count` are functions of them (R25, R26). -/
inductive DecState where
  | seekPreamble1
  | seekPreamble2
  | readHeader (hdr : List Byte)
  | readBody (messageId length : Byte) (body : List Byte)
  deriving DecidableEq, Repr

/-- The block and the streams at its boundary. -/
@[ext]
structure State where
  /-- `crc.acc` (R21). -/
  crcAcc : Byte
  /-- `dec.mode`, `dec.hdr`, `dec.message_id`, `dec.length`, `dec.body_size`, `dec.body` (R22 to R27). -/
  dec : DecState
  /-- What the environment has presented and the block has not yet taken, oldest first (R41, R50).
  DESIGN CHOICE (log 3): one serialised queue for the three agents. -/
  inputs : List Input
  /-- The event stream, oldest first (R42). -/
  events : List Event
  /-- The encoder's responses, oldest first (R43). -/
  responses : List EncodeResponse
  /-- The results of CRC.SEQ, oldest first (R40, R83). -/
  crcResults : List Byte
  deriving DecidableEq, Repr

/-- The block has no fault: "No input makes the block trap, fault, hang or produce an undefined result" (R164).
The type has no constructor, so that no step can answer one. -/
inductive Fault where
  deriving DecidableEq, Repr

/-- Why a step gives no meaning. -/
inductive Refusal where
  /-- Raised by an arm of `exec` for an operation that is not modelled yet; no arm raises it in this model. Safe. -/
  | notModelled (mnemonic : String)
  /-- Raised by a meaning of a DEC.FEED or DEC.TIMEOUT row when it is run in a mode, or on a byte, in which R66 selects
  another row. `step` never raises it, since it runs the row that R66 selects. Safe (log 5). -/
  | operationNotSelected
  deriving DecidableEq, Repr

/-- The state after reset (R34, R175): a fresh decoder, an empty event stream.
`crc.acc` is 0x00, its value at the start of every computation (log 1); nothing is pending and nothing was answered (log 3). -/
def State.reset : State where
  crcAcc := Config.crcInit
  dec := .seekPreamble1
  inputs := []
  events := []
  responses := []
  crcResults := []

end Sys2Proof.Machine
end

