-- ==== Sys2Proof/Machine/Operands.lean ====
section
/-! DEFINITION. The operands of the operations and the pure functions over them: the checksum (40_checksum.md), the frame layout (30_encoding.md R60 to R64), the encoder's function (41_encoder.md R100), the views of the decoder's registers, and the suggested codes of R22 and R154. -/

namespace Sys2Proof.Machine

/-- `crc8_bit(a)` (R81): the test is made before the shift; the bit shifted out is dropped. -/
def crc8Bit (a : Byte) : Byte :=
  if a.getLsbD 7 then (a <<< 1) ^^^ Config.poly else a <<< 1

/-- `n` times `crc8_bit`. -/
def crc8Bits : Nat → Byte → Byte
  | 0, a => a
  | n + 1, a => crc8Bits n (crc8Bit a)

/-- `crc8_byte(a, b)` (R82): the byte is XORed in whole, then eight shift steps. -/
def crc8Byte (a b : Byte) : Byte := crc8Bits 8 (a ^^^ b)

/-- The accumulator after absorbing the bytes of `s` in order from `a` (R84). -/
def absorb (a : Byte) (s : List Byte) : Byte := s.foldl crc8Byte a

/-- `checksum(s)` (R83); no final XOR. -/
def checksum (s : List Byte) : Byte := absorb Config.crcInit s

/-- The byte table `T` of R86, in the order of its index.
It is an aid; `crc8Byte` is the definition, and an obligation states that they agree. -/
def crcTable : List Byte :=
  [0x00, 0x07, 0x0E, 0x09, 0x1C, 0x1B, 0x12, 0x15, 0x38, 0x3F, 0x36, 0x31, 0x24, 0x23, 0x2A, 0x2D] ++
  [0x70, 0x77, 0x7E, 0x79, 0x6C, 0x6B, 0x62, 0x65, 0x48, 0x4F, 0x46, 0x41, 0x54, 0x53, 0x5A, 0x5D] ++
  [0xE0, 0xE7, 0xEE, 0xE9, 0xFC, 0xFB, 0xF2, 0xF5, 0xD8, 0xDF, 0xD6, 0xD1, 0xC4, 0xC3, 0xCA, 0xCD] ++
  [0x90, 0x97, 0x9E, 0x99, 0x8C, 0x8B, 0x82, 0x85, 0xA8, 0xAF, 0xA6, 0xA1, 0xB4, 0xB3, 0xBA, 0xBD] ++
  [0xC7, 0xC0, 0xC9, 0xCE, 0xDB, 0xDC, 0xD5, 0xD2, 0xFF, 0xF8, 0xF1, 0xF6, 0xE3, 0xE4, 0xED, 0xEA] ++
  [0xB7, 0xB0, 0xB9, 0xBE, 0xAB, 0xAC, 0xA5, 0xA2, 0x8F, 0x88, 0x81, 0x86, 0x93, 0x94, 0x9D, 0x9A] ++
  [0x27, 0x20, 0x29, 0x2E, 0x3B, 0x3C, 0x35, 0x32, 0x1F, 0x18, 0x11, 0x16, 0x03, 0x04, 0x0D, 0x0A] ++
  [0x57, 0x50, 0x59, 0x5E, 0x4B, 0x4C, 0x45, 0x42, 0x6F, 0x68, 0x61, 0x66, 0x73, 0x74, 0x7D, 0x7A] ++
  [0x89, 0x8E, 0x87, 0x80, 0x95, 0x92, 0x9B, 0x9C, 0xB1, 0xB6, 0xBF, 0xB8, 0xAD, 0xAA, 0xA3, 0xA4] ++
  [0xF9, 0xFE, 0xF7, 0xF0, 0xE5, 0xE2, 0xEB, 0xEC, 0xC1, 0xC6, 0xCF, 0xC8, 0xDD, 0xDA, 0xD3, 0xD4] ++
  [0x69, 0x6E, 0x67, 0x60, 0x75, 0x72, 0x7B, 0x7C, 0x51, 0x56, 0x5F, 0x58, 0x4D, 0x4A, 0x43, 0x44] ++
  [0x19, 0x1E, 0x17, 0x10, 0x05, 0x02, 0x0B, 0x0C, 0x21, 0x26, 0x2F, 0x28, 0x3D, 0x3A, 0x33, 0x34] ++
  [0x4E, 0x49, 0x40, 0x47, 0x52, 0x55, 0x5C, 0x5B, 0x76, 0x71, 0x78, 0x7F, 0x6A, 0x6D, 0x64, 0x63] ++
  [0x3E, 0x39, 0x30, 0x37, 0x22, 0x25, 0x2C, 0x2B, 0x06, 0x01, 0x08, 0x0F, 0x1A, 0x1D, 0x14, 0x13] ++
  [0xAE, 0xA9, 0xA0, 0xA7, 0xB2, 0xB5, 0xBC, 0xBB, 0x96, 0x91, 0x98, 0x9F, 0x8A, 0x8D, 0x84, 0x83] ++
  [0xDE, 0xD9, 0xD0, 0xD7, 0xC2, 0xC5, 0xCC, 0xCB, 0xE6, 0xE1, 0xE8, 0xEF, 0xFA, 0xFD, 0xF4, 0xF3]

/-- What the checksum covers: `[message_id, length] ++ payload` (R64). -/
def coverage (messageId length : Byte) (payload : List Byte) : List Byte :=
  messageId :: length :: payload

/-- The flat byte sequence of one frame (R60), offset 0 first. -/
def frameBytes (messageId length : Byte) (payload : List Byte) (check : Byte) : List Byte :=
  [Config.preamble1, Config.preamble2, messageId, length] ++ payload ++ [check]

/-- A frame is well formed when its stored checksum is the one recomputed over what it covers (R62). -/
abbrev frameWellFormed (messageId length : Byte) (payload : List Byte) (check : Byte) : Prop :=
  check = checksum (coverage messageId length payload)

/-- The `length` byte of a payload: its byte count (R102). -/
def lengthByte (payload : List Byte) : Byte := BitVec.ofNat 8 payload.length

/-- `encode(message_id, payload)` (R100): the test on the number of payload bytes comes first (R101). -/
def encodeFrame (messageId : Byte) (payload : List Byte) : EncodeResponse :=
  if Config.maxPayload < payload.length then .err .payloadTooLarge
  else .ok (frameBytes messageId (lengthByte payload) payload
    (checksum (coverage messageId (lengthByte payload) payload)))

/-- `body_size = zext_9(length) + 1` (R63, R112): 1 to 256, computed in 9 bits, no wrap. -/
def bodySize (length : Byte) : BodySize := length.zeroExtend 9 + 1

/-- `payload = body[0 .. length)` of a complete body (R63, R124). -/
def bodyPayload (length : Byte) (body : List Byte) : List Byte := body.take length.toNat

/-- `received_checksum = body[length]` of a complete body (R63, R124).
A complete body has an element there, so the default is never used. -/
def bodyReceived (length : Byte) (body : List Byte) : Byte := body.getD length.toNat 0

/-- `expected = checksum([message_id, length] ++ payload)` of a complete body (R124). -/
def bodyExpected (messageId length : Byte) (body : List Byte) : Byte :=
  checksum (coverage messageId length (bodyPayload length body))

/-- `dec.mode` (R22). -/
def DecState.mode : DecState → Mode
  | .seekPreamble1 => .seekPreamble1
  | .seekPreamble2 => .seekPreamble2
  | .readHeader _ => .readHeader
  | .readBody _ _ _ => .readBody

/-- `dec.hdr` (R23), in the mode that gives it meaning. -/
def DecState.hdr : DecState → Option (List Byte)
  | .readHeader hdr => some hdr
  | _ => none

/-- `dec.message_id` (R24), in the mode that gives it meaning. -/
def DecState.messageId : DecState → Option Byte
  | .readBody messageId _ _ => some messageId
  | _ => none

/-- `dec.length` (R24), in the mode that gives it meaning. -/
def DecState.length : DecState → Option Byte
  | .readBody _ length _ => some length
  | _ => none

/-- `dec.body_size` (R25), in the mode that gives it meaning. -/
def DecState.bodySize : DecState → Option BodySize
  | .readBody _ length _ => some (Machine.bodySize length)
  | _ => none

/-- `dec.body` (R26), in the mode that gives it meaning. -/
def DecState.body : DecState → Option (List Byte)
  | .readBody _ _ body => some body
  | _ => none

/-- `dec.count` (R26), in the mode that gives it meaning. -/
def DecState.count : DecState → Option Nat
  | .readBody _ _ body => some body.length
  | _ => none

/-- The suggested 2-bit code of a mode (R22, D10); nothing observable depends on it. -/
def Mode.code : Mode → BitVec 2
  | .seekPreamble1 => 0
  | .seekPreamble2 => 1
  | .readHeader => 2
  | .readBody => 3

/-- The suggested 2-bit kind of what one step reports (R154); nothing observable depends on it. -/
def eventKind : Option Event → BitVec 2
  | none => 0
  | some (.frame _ _) => 1
  | some (.checksumMismatch _ _ _ _) => 2
  | some .incompletePacket => 3

/-- The suggested 1-bit encoder outcome (R154); nothing observable depends on it. -/
def outcomeCode : EncodeResponse → BitVec 1
  | .ok _ => 0
  | .err .payloadTooLarge => 1

end Sys2Proof.Machine
end

