-- ==== Sys2Proof/Machine/Flags.lean ====
section
/-! DEFINITION. The block keeps no flag (10_state.md R30). These are the comparisons a step computes and consumes at once (R111, R112). -/

namespace Sys2Proof.Machine

/-- One more byte would bring the count of body bytes to `body_size` (R111, R112): `|body| + 1 < body_size` fails. -/
def bodyCompletes (length : Byte) (body : List Byte) : Bool :=
  !decide (body.length + 1 < (bodySize length).toNat)

/-- `expected == received` for a complete body (R124): exact equality of 8-bit values. -/
def checksumMatches (messageId length : Byte) (body : List Byte) : Bool :=
  bodyExpected messageId length body == bodyReceived length body

end Sys2Proof.Machine
end

