-- ==== Sys2Proof/WellFormed.lean ====
section
/-! DEFINITION. Which operations are well formed as syntax: their operands satisfy the byte tests of 30_encoding.md R66 and the frame layout of R60. -/

namespace Sys2Proof

/-- Why an operation is ill formed. -/
inductive IllFormed where
  /-- FRAME whose payload does not have exactly `length` bytes (R60, R62). -/
  | payloadLength
  /-- DEC.FEED.S1.OTHER with the byte of DEC.FEED.S1.P1 (R114: `b != 0x55`). -/
  | s1OtherIsPreamble1
  /-- DEC.FEED.S2.OTHER with the byte of DEC.FEED.S2.P2 (R118: `b != 0xAA`). -/
  | s2OtherIsPreamble2
  /-- DEC.FEED.S2.OTHER with the byte of DEC.FEED.S2.P1 (R118: `b != 0x55`). -/
  | s2OtherIsPreamble1
  deriving DecidableEq, Repr

/-- The first check an operation fails, if any.
ENC.ENCODE and CRC.SEQ take a sequence of any length (R43, R83), and every byte value is legal elsewhere (R68, R69, R70). -/
def Instr.illFormed : Instr → Option IllFormed
  | .frame _ len payload _ => if payload.length = len.toNat then none else some .payloadLength
  | .crcClear => none
  | .crcBit => none
  | .crcByte _ => none
  | .crcSeq _ => none
  | .encEncode _ _ => none
  | .decFeedS1P1 => none
  | .decFeedS1Other b => if b = Config.preamble1 then some .s1OtherIsPreamble1 else none
  | .decFeedS2P2 => none
  | .decFeedS2P1 => none
  | .decFeedS2Other b =>
    if b = Config.preamble2 then some .s2OtherIsPreamble2
    else if b = Config.preamble1 then some .s2OtherIsPreamble1
    else none
  | .decFeedHdrId _ => none
  | .decFeedHdrLen _ => none
  | .decFeedBodyMore _ => none
  | .decFeedBodyEmit _ => none
  | .decFeedBodyReject _ => none
  | .decTimeoutS1 => none
  | .decTimeoutS2 => none
  | .decTimeoutHdr => none
  | .decTimeoutBody => none
  | .decReset => none
  | .decFeedn _ => none

/-- An operation is well formed when every check passes. -/
abbrev Instr.WellFormed (i : Instr) : Prop := i.illFormed = none

end Sys2Proof
end

