-- ==== Sys2Proof/Decode.lean ====
section
/-! DEFINITION. Which operation an input selects (30_encoding.md R66, R67, R74), the wire format's parser (R60, R63), and after them the encoder: the input that selects a given operation. -/

namespace Sys2Proof

open Sys2Proof.Machine

/-- The row of R66 for a byte in a decoder state; the rows of one mode are tested top to bottom.
Total: "every (mode, byte) pair falls in exactly one row". -/
def selectFeed (d : DecState) (b : Byte) : Instr :=
  match d with
  | .seekPreamble1 => if b = Config.preamble1 then .decFeedS1P1 else .decFeedS1Other b
  | .seekPreamble2 =>
    if b = Config.preamble2 then .decFeedS2P2
    else if b = Config.preamble1 then .decFeedS2P1
    else .decFeedS2Other b
  | .readHeader [] => .decFeedHdrId b
  | .readHeader (_ :: _) => .decFeedHdrLen b
  | .readBody messageId length body =>
    if bodyCompletes length body then
      if checksumMatches messageId length (body ++ [b]) then .decFeedBodyEmit b else .decFeedBodyReject b
    else .decFeedBodyMore b

/-- The DEC.TIMEOUT row of R67 for a decoder state. -/
def selectTimeout : DecState → Instr
  | .seekPreamble1 => .decTimeoutS1
  | .seekPreamble2 => .decTimeoutS2
  | .readHeader _ => .decTimeoutHdr
  | .readBody _ _ _ => .decTimeoutBody

/-- The body of a frame: `length` payload bytes, the checksum byte, and the bytes after the frame (R60, R63). -/
def splitBody (messageId length : Byte) (rest : List Byte) : Except FrameReject (Instr × List Byte) :=
  match rest.drop length.toNat with
  | [] => .error .bodyCut
  | check :: after => .ok (.frame messageId length (rest.take length.toNat) check, after)

/-- The frame a byte sequence begins with, and the bytes after it (R60), total on any bytes.
The checksum is not tested: a sequence whose checksum does not match "is not 'illegal'; it is a rejected frame" (R70; log 4). -/
def decodeFrame : List Byte → Except FrameReject (Instr × List Byte)
  | [] => .error .preamble1Missing
  | p1 :: t1 =>
    if p1 = Config.preamble1 then
      match t1 with
      | [] => .error .preamble2Missing
      | p2 :: t2 =>
        if p2 = Config.preamble2 then
          match t2 with
          | messageId :: length :: rest => splitBody messageId length rest
          | _ => .error .headerCut
        else .error .preamble2Missing
    else .error .preamble1Missing

/-- The frame that a byte sequence is, when it is exactly one frame; otherwise why it is not. -/
def decodeWire (bytes : List Byte) : Except FrameReject Instr :=
  match decodeFrame bytes with
  | .error why => .error why
  | .ok (i, []) => .ok i
  | .ok (_, _ :: _) => .error .bytesAfterFrame

/-- The operation that bytes on the wire select: FRAME when they are one frame, and otherwise the feed call of these bytes,
since "every byte in every mode has a defined effect" (R70, R131; log 4). -/
def selectWire (bytes : List Byte) : Instr :=
  match decodeWire bytes with
  | .ok i => i
  | .error _ => .decFeedn bytes

/-- The operation an input selects in a decoder state (R66, R67, R74).
Total: the block "never refuses an item" (R41, R110). -/
def decode (d : DecState) : Input → Instr
  | .byte b => selectFeed d b
  | .timeout => selectTimeout d
  | .reset => .decReset
  | .chunk s => .decFeedn s
  | .wire bytes => selectWire bytes
  | .encode messageId payload => .encEncode messageId payload
  | .crcClear => .crcClear
  | .crcBit => .crcBit
  | .crcByte b => .crcByte b
  | .crcSeq s => .crcSeq s

/-- The input that selects an operation: its byte, its kind, or its frame's bytes (R60, R66, R67). -/
def encode : Instr → Input
  | .frame messageId length payload check => .wire (frameBytes messageId length payload check)
  | .crcClear => .crcClear
  | .crcBit => .crcBit
  | .crcByte b => .crcByte b
  | .crcSeq s => .crcSeq s
  | .encEncode messageId payload => .encode messageId payload
  | .decFeedS1P1 => .byte Config.preamble1
  | .decFeedS1Other b => .byte b
  | .decFeedS2P2 => .byte Config.preamble2
  | .decFeedS2P1 => .byte Config.preamble1
  | .decFeedS2Other b => .byte b
  | .decFeedHdrId b => .byte b
  | .decFeedHdrLen b => .byte b
  | .decFeedBodyMore b => .byte b
  | .decFeedBodyEmit b => .byte b
  | .decFeedBodyReject b => .byte b
  | .decTimeoutS1 => .timeout
  | .decTimeoutS2 => .timeout
  | .decTimeoutHdr => .timeout
  | .decTimeoutBody => .timeout
  | .decReset => .reset
  | .decFeedn s => .chunk s

/-- The mode, the guard and the byte test of an operation's row (R66; `fields.mode`, `fields.guard` of the table).
The rows of the checksum engine, the encoder, `Reset`, FEEDN and FRAME apply in every state.
In a header with more than one stored byte, or a body longer than `length`, which no run reaches (R36), the guards read
R111's `else` branches: the second header byte, the completing byte. -/
def Instr.applies (i : Instr) (d : DecState) : Bool :=
  match i with
  | .frame _ _ _ _ => true
  | .crcClear => true
  | .crcBit => true
  | .crcByte _ => true
  | .crcSeq _ => true
  | .encEncode _ _ => true
  | .decFeedS1P1 => d.mode == .seekPreamble1
  | .decFeedS1Other b => d.mode == .seekPreamble1 && !(b == Config.preamble1)
  | .decFeedS2P2 => d.mode == .seekPreamble2
  | .decFeedS2P1 => d.mode == .seekPreamble2
  | .decFeedS2Other b => d.mode == .seekPreamble2 && !(b == Config.preamble2) && !(b == Config.preamble1)
  | .decFeedHdrId _ =>
    match d with
    | .readHeader [] => true
    | _ => false
  | .decFeedHdrLen _ =>
    match d with
    | .readHeader (_ :: _) => true
    | _ => false
  | .decFeedBodyMore _ =>
    match d with
    | .readBody _ length body => !bodyCompletes length body
    | _ => false
  | .decFeedBodyEmit b =>
    match d with
    | .readBody messageId length body =>
      bodyCompletes length body && checksumMatches messageId length (body ++ [b])
    | _ => false
  | .decFeedBodyReject b =>
    match d with
    | .readBody messageId length body =>
      bodyCompletes length body && !checksumMatches messageId length (body ++ [b])
    | _ => false
  | .decTimeoutS1 => d.mode == .seekPreamble1
  | .decTimeoutS2 => d.mode == .seekPreamble2
  | .decTimeoutHdr => d.mode == .readHeader
  | .decTimeoutBody => d.mode == .readBody
  | .decReset => true
  | .decFeedn _ => true

/-- The bytes of an instruction whose table bits are `w`: one byte for a `dec-byte` row; for the wire row the four bytes
of its pattern, byte 0 leftmost (its highest bits), then zeros up to the longest frame, 260 bytes (R61, R74). -/
def tableBytes (nbits w : Nat) : List Byte :=
  if nbits = 32 then
    [BitVec.ofNat 8 (w / 0x1000000), BitVec.ofNat 8 (w / 0x10000), BitVec.ofNat 8 (w / 0x100),
      BitVec.ofNat 8 w] ++ List.replicate 256 0
  else [BitVec.ofNat 8 w]

/-- The input a table word stands for: an 8-bit word is `Byte(b)`, a 32-bit word is the frame its bytes begin with. -/
def tableInput (nbits w : Nat) : Option Input :=
  if nbits = 8 then some (.byte (BitVec.ofNat 8 w))
  else if nbits = 32 then
    match decodeFrame (tableBytes nbits w) with
    | .ok (i, _) => some (encode i)
    | .error _ => none
  else none

/-- The decoder state in which a table word is read (log 6): the mode of the first `dec-byte` row that fixes its bits,
which is `SeekPreamble2` for 0xAA (R116) and `SeekPreamble1` for every other byte; a frame is read in any state. -/
def tableState (nbits w : Nat) (d : DecState) : DecState :=
  if nbits = 8 then
    if BitVec.ofNat 8 w = Config.preamble2 then .seekPreamble2 else .seekPreamble1
  else d

/-- The operation the decoder reads from a table word. -/
def decodeTableWord (nbits w : Nat) : Option Instr :=
  match tableInput nbits w with
  | none => none
  | some x => some (decode (tableState nbits w .seekPreamble1) x)

end Sys2Proof
end

