-- ==== Sys2Proof/Machine/Ops.lean ====
section
/-! DEFINITION. The named operations every meaning is written over: the updates of State, raising an error event (00_scope.md R10, 60_exceptions.md R157), and the decoder's step functions `dec_feed`, `dec_timeout`, `dec_feedn` (42_decoder.md R111, R126, R131). -/

namespace Sys2Proof.Machine

/-- `crc.acc <- a`. -/
def State.setCrcAcc (s : State) (a : Byte) : State := { s with crcAcc := a }

/-- The decoder's state becomes `d`; whatever it held before is discarded (R27). -/
def State.setDec (s : State) (d : DecState) : State := { s with dec := d }

/-- The environment's queue of pending inputs becomes `q`. -/
def State.setInputs (s : State) (q : List Input) : State := { s with inputs := q }

/-- `emit` for each event in order: appended to the event stream (R10, R42). -/
def State.emit (s : State) (es : List Event) : State := { s with events := s.events ++ es }

/-- The encoder answers (R43). -/
def State.respond (s : State) (r : EncodeResponse) : State := { s with responses := s.responses ++ [r] }

/-- The checksum engine answers (R40). -/
def State.report (s : State) (c : Byte) : State := { s with crcResults := s.crcResults ++ [c] }

/-- Entry of a decode-time error, `raise X(info)` (R10, R157): (a) append the event, (b) discard all partial state,
(c) `dec.mode <- SeekPreamble1`.
It is also the return: "always returning to `SeekPreamble1`" by itself, with no return operation (R159). -/
def State.raise (s : State) (e : Event) : State := (s.emit [e]).setDec .seekPreamble1

/-- Entry of the encode-time error (R151, R157): the response is the error, and nothing else changes. -/
def State.raiseEncode (s : State) (e : EncodeError) : State := s.respond (.err e)

/-- The result of a decoder step function: the new decoder state and the events, in order. -/
def State.deliver (s : State) (r : DecState × List Event) : State := (s.emit r.2).setDec r.1

/-- The `SeekPreamble1` arm of `dec_feed` (R111; R113, R114). -/
def decSeek1 (b : Byte) : DecState × List Event :=
  if b = Config.preamble1 then (.seekPreamble2, []) else (.seekPreamble1, [])

/-- What `SeekPreamble2` does with a byte that is not `PREAMBLE2`, under each of the two policies R115 names. -/
def resyncWith (policy : Config.ResyncPolicy) (b : Byte) : DecState × List Event :=
  match policy with
  | .reexamine => decSeek1 b
  | .discard => (.seekPreamble1, [])

/-- `dec_feed(state, b)` (R111), "the single definition" of a byte step; the meanings of the DEC.FEED rows must agree with it. -/
def decFeed (d : DecState) (b : Byte) : DecState × List Event :=
  match d with
  | .seekPreamble1 => decSeek1 b
  | .seekPreamble2 =>
    if b = Config.preamble2 then (.readHeader [], []) else resyncWith Config.resyncPolicy b
  | .readHeader [] => (.readHeader [b], [])
  | .readHeader (messageId :: _) => (.readBody messageId b [], [])
  | .readBody messageId length body =>
    if bodyCompletes length body then
      if checksumMatches messageId length (body ++ [b]) then
        (.seekPreamble1, [.frame messageId (bodyPayload length (body ++ [b]))])
      else
        (.seekPreamble1, [.checksumMismatch messageId length
          (bodyExpected messageId length (body ++ [b])) (bodyReceived length (body ++ [b]))])
    else (.readBody messageId length (body ++ [b]), [])

/-- `dec_timeout(state)` (R126). -/
def decTimeout : DecState → DecState × List Event
  | .seekPreamble1 => (.seekPreamble1, [])
  | .seekPreamble2 => (.seekPreamble1, [])
  | .readHeader _ => (.seekPreamble1, [.incompletePacket])
  | .readBody _ _ _ => (.seekPreamble1, [.incompletePacket])

/-- `dec_feedn(state, s)` (R131): the bytes one at a time in order, the events concatenated in order. -/
def decFeedn (d : DecState) : List Byte → DecState × List Event
  | [] => (d, [])
  | b :: t =>
    ((decFeedn (decFeed d b).1 t).1, (decFeed d b).2 ++ (decFeedn (decFeed d b).1 t).2)

end Sys2Proof.Machine
end

