-- ==== Sys2Proof/Machine/Checksum.lean ====
section
/-! DEFINITION. The meanings of the checksum engine's operations, CRC.* (40_checksum.md R80 to R83). -/

namespace Sys2Proof.Machine

/-- CRC.CLEAR (R80): `crc.acc <- CRC_INIT`. -/
def execCrcClear (s : State) : Host.Outcome State Fault Refusal :=
  .next (s.setCrcAcc Config.crcInit)

/-- CRC.BIT (R81): `crc.acc <- crc8_bit(crc.acc)`. -/
def execCrcBit (s : State) : Host.Outcome State Fault Refusal :=
  .next (s.setCrcAcc (crc8Bit s.crcAcc))

/-- CRC.BYTE (R82): `crc.acc <- crc8_byte(crc.acc, b)`. -/
def execCrcByte (b : Byte) (s : State) : Host.Outcome State Fault Refusal :=
  .next (s.setCrcAcc (crc8Byte s.crcAcc b))

/-- CRC.SEQ (R83): clear, absorb each byte in order, answer the accumulator (R72); no final XOR.
The working register keeps the final value (R21: "its final value is the checksum"; log 1). -/
def execCrcSeq (bs : List Byte) (s : State) : Host.Outcome State Fault Refusal :=
  .next ((s.setCrcAcc (checksum bs)).report (checksum bs))

end Sys2Proof.Machine
end

