-- ==== Sys2Proof/Machine/Control.lean ====
section
/-! DEFINITION. The meanings of DEC.TIMEOUT.* (42_decoder.md R127 to R130), DEC.RESET (R132), DEC.FEEDN (R131) and of a frame on the wire (30_encoding.md R60). -/

namespace Sys2Proof.Machine

/-- DEC.TIMEOUT.S1 (R127): nothing changes; no event. -/
def execDecTimeoutS1 (s : State) : Host.Outcome State Fault Refusal :=
  match s.dec with
  | .seekPreamble1 => .next s
  | _ => .refused .operationNotSelected

/-- DEC.TIMEOUT.S2 (R128): `dec.mode <- SeekPreamble1`; no event. -/
def execDecTimeoutS2 (s : State) : Host.Outcome State Fault Refusal :=
  match s.dec with
  | .seekPreamble2 => .next (s.setDec .seekPreamble1)
  | _ => .refused .operationNotSelected

/-- DEC.TIMEOUT.HDR (R129): `raise IncompletePacket`, with zero or one header byte accumulated. -/
def execDecTimeoutHdr (s : State) : Host.Outcome State Fault Refusal :=
  match s.dec with
  | .readHeader _ => .next (s.raise .incompletePacket)
  | _ => .refused .operationNotSelected

/-- DEC.TIMEOUT.BODY (R130): `raise IncompletePacket`, whatever the count of accumulated body bytes. -/
def execDecTimeoutBody (s : State) : Host.Outcome State Fault Refusal :=
  match s.dec with
  | .readBody _ _ _ => .next (s.raise .incompletePacket)
  | _ => .refused .operationNotSelected

/-- DEC.RESET (R132, R176): the fresh decoder state, no event; events already emitted, the encoder and `crc` are untouched. -/
def execDecReset (s : State) : Host.Outcome State Fault Refusal :=
  .next (s.setDec .seekPreamble1)

/-- DEC.FEEDN (R131): the FEED steps of its bytes in order. -/
def execDecFeedn (bs : List Byte) (s : State) : Host.Outcome State Fault Refusal :=
  .next (s.deliver (decFeedn s.dec bs))

/-- FRAME (R60): the decoder is fed the bytes of one frame in order, in whatever state it is (log 4). -/
def execFrame (messageId length : Byte) (payload : List Byte) (check : Byte) (s : State) :
    Host.Outcome State Fault Refusal :=
  .next (s.deliver (decFeedn s.dec (frameBytes messageId length payload check)))

end Sys2Proof.Machine
end

