-- ==== Sys2Proof/Machine/Decoder.lean ====
section
/-! DEFINITION. The meanings of the ten DEC.FEED rows (42_decoder.md R113 to R124), each written from its own rule. A row run where R66 selects another row is refused by name (log 5). -/

namespace Sys2Proof.Machine

/-- DEC.FEED.S1.P1 (R113): `dec.mode <- SeekPreamble2`; no event. -/
def execDecFeedS1P1 (s : State) : Host.Outcome State Fault Refusal :=
  match s.dec with
  | .seekPreamble1 => .next (s.setDec .seekPreamble2)
  | _ => .refused .operationNotSelected

/-- DEC.FEED.S1.OTHER (R114): no state change, no event. -/
def execDecFeedS1Other (b : Byte) (s : State) : Host.Outcome State Fault Refusal :=
  match s.dec with
  | .seekPreamble1 => if b = Config.preamble1 then .refused .operationNotSelected else .next s
  | _ => .refused .operationNotSelected

/-- DEC.FEED.S2.P2 (R116): `dec.mode <- ReadHeader`; `dec.hdr <- []`; no event. -/
def execDecFeedS2P2 (s : State) : Host.Outcome State Fault Refusal :=
  match s.dec with
  | .seekPreamble2 => .next (s.setDec (.readHeader []))
  | _ => .refused .operationNotSelected

/-- DEC.FEED.S2.P1 (R117): re-examined under `RESYNC_POLICY` (R115), so `dec.mode` stays `SeekPreamble2`; no event.
The one arm that depends on the policy. -/
def execDecFeedS2P1 (s : State) : Host.Outcome State Fault Refusal :=
  match s.dec with
  | .seekPreamble2 => .next (s.deliver (resyncWith Config.resyncPolicy Config.preamble1))
  | _ => .refused .operationNotSelected

/-- DEC.FEED.S2.OTHER (R118): back to `SeekPreamble1`, the byte discarded; no event. -/
def execDecFeedS2Other (b : Byte) (s : State) : Host.Outcome State Fault Refusal :=
  match s.dec with
  | .seekPreamble2 =>
    if b = Config.preamble2 ∨ b = Config.preamble1 then .refused .operationNotSelected
    else .next (s.setDec .seekPreamble1)
  | _ => .refused .operationNotSelected

/-- DEC.FEED.HDR.ID (R119): `dec.hdr <- [b]`; no event. The byte is not tested against the preamble (R125). -/
def execDecFeedHdrId (b : Byte) (s : State) : Host.Outcome State Fault Refusal :=
  match s.dec with
  | .readHeader [] => .next (s.setDec (.readHeader [b]))
  | _ => .refused .operationNotSelected

/-- DEC.FEED.HDR.LEN (R120): `dec.message_id <- dec.hdr[0]`; `dec.length <- b`; `dec.body <- []`;
`dec.mode <- ReadBody`; no event, and no test of `b` (R69). `dec.body_size` follows from `dec.length` (R25). -/
def execDecFeedHdrLen (b : Byte) (s : State) : Host.Outcome State Fault Refusal :=
  match s.dec with
  | .readHeader (messageId :: _) => .next (s.setDec (.readBody messageId b []))
  | _ => .refused .operationNotSelected

/-- DEC.FEED.BODY.MORE (R121): `dec.body <- dec.body ++ [b]`; no event. -/
def execDecFeedBodyMore (b : Byte) (s : State) : Host.Outcome State Fault Refusal :=
  match s.dec with
  | .readBody messageId length body =>
    if bodyCompletes length body then .refused .operationNotSelected
    else .next (s.setDec (.readBody messageId length (body ++ [b])))
  | _ => .refused .operationNotSelected

/-- DEC.FEED.BODY.EMIT (R122, R124): `emit Frame(dec.message_id, payload)`; `dec.mode <- SeekPreamble1`. -/
def execDecFeedBodyEmit (b : Byte) (s : State) : Host.Outcome State Fault Refusal :=
  match s.dec with
  | .readBody messageId length body =>
    if bodyCompletes length body && checksumMatches messageId length (body ++ [b]) then
      .next ((s.emit [.frame messageId (bodyPayload length (body ++ [b]))]).setDec .seekPreamble1)
    else .refused .operationNotSelected
  | _ => .refused .operationNotSelected

/-- DEC.FEED.BODY.REJECT (R123, R124): `raise ChecksumMismatch(dec.message_id, dec.length, expected, received)`. -/
def execDecFeedBodyReject (b : Byte) (s : State) : Host.Outcome State Fault Refusal :=
  match s.dec with
  | .readBody messageId length body =>
    if bodyCompletes length body && !checksumMatches messageId length (body ++ [b]) then
      .next (s.raise (.checksumMismatch messageId length
        (bodyExpected messageId length (body ++ [b])) (bodyReceived length (body ++ [b]))))
    else .refused .operationNotSelected
  | _ => .refused .operationNotSelected

end Sys2Proof.Machine
end

