-- ==== Sys2Proof/Machine/Encoder.lean ====
section
/-! DEFINITION. The meaning of ENC.ENCODE (41_encoder.md R100 to R103). -/

namespace Sys2Proof.Machine

/-- ENC.ENCODE (R100): one response, `Ok` with the frame or `Err(PayloadTooLarge)` with no bytes; no other effect (R103). -/
def execEncEncode (messageId : Byte) (payload : List Byte) (s : State) : Host.Outcome State Fault Refusal :=
  match encodeFrame messageId payload with
  | .ok bytes => .next (s.respond (.ok bytes))
  | .err e => .next (s.raiseEncode e)

end Sys2Proof.Machine
end

