-- ==== Sys2Proof/Machine/Dispatch.lean ====
section
/-! DEFINITION. One arm per operation. -/

namespace Sys2Proof.Machine

def exec (i : Instr) (s : State) : Host.Outcome State Fault Refusal :=
  match i with
  | .frame messageId length payload check => Sys2Proof.Machine.execFrame messageId length payload check s
  | .crcClear => Sys2Proof.Machine.execCrcClear s
  | .crcBit => Sys2Proof.Machine.execCrcBit s
  | .crcByte b => Sys2Proof.Machine.execCrcByte b s
  | .crcSeq bs => Sys2Proof.Machine.execCrcSeq bs s
  | .encEncode messageId payload => Sys2Proof.Machine.execEncEncode messageId payload s
  | .decFeedS1P1 => Sys2Proof.Machine.execDecFeedS1P1 s
  | .decFeedS1Other b => Sys2Proof.Machine.execDecFeedS1Other b s
  | .decFeedS2P2 => Sys2Proof.Machine.execDecFeedS2P2 s
  | .decFeedS2P1 => Sys2Proof.Machine.execDecFeedS2P1 s
  | .decFeedS2Other b => Sys2Proof.Machine.execDecFeedS2Other b s
  | .decFeedHdrId b => Sys2Proof.Machine.execDecFeedHdrId b s
  | .decFeedHdrLen b => Sys2Proof.Machine.execDecFeedHdrLen b s
  | .decFeedBodyMore b => Sys2Proof.Machine.execDecFeedBodyMore b s
  | .decFeedBodyEmit b => Sys2Proof.Machine.execDecFeedBodyEmit b s
  | .decFeedBodyReject b => Sys2Proof.Machine.execDecFeedBodyReject b s
  | .decTimeoutS1 => Sys2Proof.Machine.execDecTimeoutS1 s
  | .decTimeoutS2 => Sys2Proof.Machine.execDecTimeoutS2 s
  | .decTimeoutHdr => Sys2Proof.Machine.execDecTimeoutHdr s
  | .decTimeoutBody => Sys2Proof.Machine.execDecTimeoutBody s
  | .decReset => Sys2Proof.Machine.execDecReset s
  | .decFeedn bs => Sys2Proof.Machine.execDecFeedn bs s

end Sys2Proof.Machine
end

