-- ==== Sys2Proof/Machine/Step.lean ====
section
/-! DEFINITION. One step: take the oldest pending input, select its operation, run it (42_decoder.md R110, 20_memory.md R41, R50). -/

namespace Sys2Proof.Machine

/-- The block "takes one step for each input it is given" (R110), in the order they were presented (R49), and refuses none.
With nothing presented it is idle and keeps all its state (R165; log 2). -/
def step (s : State) : Host.Outcome State Fault Refusal :=
  match s.inputs with
  | [] => .next s
  | x :: rest => exec (decode s.dec x) (s.setInputs rest)

/-- `s` with the operation of a table word presented next (log 6): its input becomes the oldest pending one, and for a
`dec-byte` word the decoder is put in the mode in which the table reads that word.
A word that stands for no operation is presented as raw bytes on the wire, which `step` feeds to the decoder (R131). -/
def State.withFetchWord (s : State) (nbits w : Nat) : State :=
  match tableInput nbits w with
  | some x => (s.setDec (tableState nbits w s.dec)).setInputs (x :: s.inputs)
  | none => s.setInputs (.wire (tableBytes nbits w) :: s.inputs)

end Sys2Proof.Machine
end

