-- ==== Sys2Proof/Machine/ByteSource.lean ====
section
/-! DEFINITION. The capability the block requires of its environment (43_transport_and_host.md R140 to R144), as functions on what is read and written: how the results of the transport's `read` become inputs, and what a caller writes for a response. The Transport Adapter itself is outside the block (00_scope.md R4). -/

namespace Sys2Proof.Machine

/-- `elapsed(chunk, max_bytes)`: which read results count as "a bounded wait elapsed", under each named policy (R143). -/
def elapsed (policy : Config.TimeoutPolicy) (maxBytes : Nat) (chunk : List Byte) : Bool :=
  match policy with
  | .onEmptyRead => chunk.isEmpty
  | .onShortRead => decide (chunk.length < maxBytes)

/-- One round of the reference loop of R142: `FEEDN chunk`, then `TIMEOUT` if the wait elapsed. -/
def presentRead (policy : Config.TimeoutPolicy) (maxBytes : Nat) (chunk : List Byte) : List Input :=
  .chunk chunk :: if elapsed policy maxBytes chunk then [.timeout] else []

/-- The bulk-buffer producer: a sequence of feed calls (R144). -/
def bulkSource (chunks : List (List Byte)) : List Input := chunks.map .chunk

/-- The per-byte producer: a sequence of single bytes (R144). -/
def perByteSource (chunks : List (List Byte)) : List Input := chunks.flatten.map .byte

/-- What the caller passes to `write` for a response: the `Ok` bytes whole and in order, nothing for `Err` (R141, R147). -/
def bytesToWrite : EncodeResponse → Option (List Byte)
  | .ok bytes => some bytes
  | .err _ => none

end Sys2Proof.Machine
end

