-- ==== Sys2Proof/Safety.lean ====
section
/-! DEFINITION. What holds between any two steps (10_state.md R36), and what a safe step is: it answers a next state (60_exceptions.md R164). -/

namespace Sys2Proof

/-- An emitted `Frame` has at most 255 payload bytes (R69, R122, R191); a `ChecksumMismatch` carries two different checksums (R123). -/
abbrev Event.Bounded (e : Event) : Prop :=
  match e with
  | .frame _ payload => payload.length ≤ Config.decLengthMax
  | .checksumMismatch _ _ expected received => expected ≠ received
  | .incompletePacket => True

/-- A successful response is a frame of 5 to 69 bytes that begins with the preamble and whose covered bytes and checksum
leave no residue (R104 (a), (b), (d)). -/
abbrev EncodeResponse.Sound (r : EncodeResponse) : Prop :=
  match r with
  | .ok bytes => 5 ≤ bytes.length ∧ bytes.length ≤ 69 ∧ bytes.take 2 = [0x55, 0xAA] ∧ Machine.checksum (bytes.drop 2) = 0
  | .err _ => True

end Sys2Proof

namespace Sys2Proof.Machine

/-- The state invariants of the decoder (R36): at most one header byte stored; `|body| ≤ length`. -/
abbrev DecState.Inv (d : DecState) : Prop :=
  match d with
  | .seekPreamble1 => True
  | .seekPreamble2 => True
  | .readHeader hdr => hdr.length ≤ 1
  | .readBody _ length body => body.length ≤ length.toNat

/-- The invariant of the block: the decoder's shape, and what every event and every response it has given satisfies. -/
structure State.Inv (s : State) : Prop where
  dec : s.dec.Inv
  events : ∀ e ∈ s.events, e.Bounded
  responses : ∀ r ∈ s.responses, r.Sound

/-- What a decoder that has been fed the bytes `history` holds of them (R36): a remembered 0x55 is the last byte; the bytes
in `dec.hdr` and `dec.body` stand at the end, in order and with none left out, right after a preamble pair. -/
def DecState.HeldOf (d : DecState) (history : List Byte) : Prop :=
  match d with
  | .seekPreamble1 => True
  | .seekPreamble2 => ∃ pre, history = pre ++ [0x55]
  | .readHeader hdr => ∃ pre, history = pre ++ [0x55, 0xAA] ++ hdr
  | .readBody messageId length body => ∃ pre, history = pre ++ [0x55, 0xAA, messageId, length] ++ body

/-- The bytes the next step delivers to the decoder. -/
def State.nextDelivered (s : State) : List Byte :=
  match s.inputs with
  | [] => []
  | x :: _ => x.delivered

/-- A step is safe when it answers a next state. -/
def State.SafeStep (s : State) : Prop := ∃ t, step s = .next t

/-- `k` steps, stopping at the first that answers no next state: the host's run at this machine's own types
(Laws/Ops.lean proves them equal). -/
def run : Nat → State → Host.Outcome State Fault Refusal
  | 0, s => .next s
  | k + 1, s =>
    match step s with
    | .next t => run k t
    | .fault r => .fault r
    | .refused r => .refused r

/-- The decoder is in one of its two seek modes. -/
abbrev DecState.Seeking (d : DecState) : Prop := d = .seekPreamble1 ∨ d = .seekPreamble2

/-- The inputs the decoder takes one at a time (R110): `Byte(b)`, `Timeout`, `Reset`. -/
abbrev DecoderItem (x : Input) : Prop := x = .timeout ∨ x = .reset ∨ ∃ b, x = .byte b

end Sys2Proof.Machine
end

