-- ==== Sys2Proof/Certificates/Slice0/Obligations.lean ====
section
/-! DEFINITION. The statements for the provers. Each docstring names the rules of spec/ it formalises; where a clause rests on a choice of this model it names the log entry. -/

open Sys2Proof Sys2Proof.Machine

/-! ## The checksum engine -/

/-- R80: `crc.acc <- CRC_INIT`, and nothing else changes. -/
def Obligations.CrcClearZeroesTheAccumulator : Prop :=
  ∀ s : State, exec .crcClear s = .next { s with crcAcc := 0x00 }

/-- R81, R88: over natural numbers, shift left, XOR with 0x07 if bit 7 was set before the shift, and mask to 8 bits after
every shift; nothing else changes. -/
def Obligations.CrcBitIsOneShiftStep : Prop :=
  ∀ s : State, exec .crcBit s = .next { s with
    crcAcc := BitVec.ofNat 8
      (if s.crcAcc.toNat / 128 % 2 = 1 then ((s.crcAcc.toNat <<< 1) ^^^ 0x07) % 256
       else (s.crcAcc.toNat <<< 1) % 256) }

/-- R82: the byte is XORed in whole, then eight shift steps; with its corner cases: a byte equal to the accumulator clears
it, and the result depends only on the XOR of the two, so that it is the entry of the table of R86 at that XOR. -/
def Obligations.CrcByteAbsorbsOneByte : Prop :=
  (∀ (b : Byte) (s : State),
    exec (.crcByte b) s = .next { s with crcAcc := crc8Bit^[8] (s.crcAcc ^^^ b) }) ∧
  (∀ a : Byte, crc8Byte a a = 0x00) ∧
  (∀ a b : Byte, crc8Byte a b = crc8Byte 0x00 (a ^^^ b) ∧ crcTable[(a ^^^ b).toNat]? = some (crc8Byte a b))

/-- R83: the checksum engine answers `checksum(s)`, the bytes absorbed in sequence order from 0x00 with no final XOR, for a
sequence of any length; apart from the working register nothing else changes. -/
def Obligations.CrcSeqAnswersTheChecksum : Prop :=
  ∀ (bs : List Byte) (s : State), ∃ acc : Byte,
    exec (.crcSeq bs) s = .next { s with
      crcAcc := acc
      crcResults := s.crcResults ++ [bs.foldl (fun a b => crc8Bit^[8] (a ^^^ b)) 0x00] }

/-- R72, R84: CRC.SEQ leaves the accumulator as CRC.CLEAR followed by CRC.BYTE for each byte leaves it, and that
value is the one it answers. That CRC.SEQ leaves a defined value in the working register is the model's reading (log 1). -/
def Obligations.CrcSeqIsClearThenBytes : Prop :=
  ∀ (bs : List Byte) (rest : List Input) (s : State),
    run (bs.length + 1) { s with inputs := .crcClear :: bs.map .crcByte ++ rest } =
      .next { s with inputs := rest, crcAcc := checksum bs } ∧
    run 1 { s with inputs := .crcSeq bs :: rest } =
      .next { s with inputs := rest, crcAcc := checksum bs, crcResults := s.crcResults ++ [checksum bs] }

/-- R84: incremental and whole-sequence evaluation agree. -/
def Obligations.ChecksumIsIncremental : Prop :=
  (∀ (s : List Byte) (b : Byte), checksum (s ++ [b]) = crc8Byte (checksum s) b) ∧
  (∀ s t : List Byte, checksum (s ++ t) = t.foldl crc8Byte (checksum s))

/-- R86: the 256-entry table is the algorithm. -/
def Obligations.ByteTableIsTheAlgorithm : Prop :=
  crcTable.length = 256 ∧
  (∀ x : Byte, crcTable[x.toNat]? = some (crc8Byte 0x00 x)) ∧
  (∀ a b : Byte, crcTable[(a ^^^ b).toNat]? = some (crc8Byte a b))

/-- R87: linearity over XOR, of the shift step, of the byte step, and of the checksum of sequences of equal length. -/
def Obligations.ChecksumIsLinearOverXor : Prop :=
  (∀ a b : Byte, crc8Bit (a ^^^ b) = crc8Bit a ^^^ crc8Bit b) ∧
  (∀ a a' b b' : Byte, crc8Byte (a ^^^ a') (b ^^^ b') = crc8Byte a b ^^^ crc8Byte a' b') ∧
  (∀ s t : List Byte, s.length = t.length →
    checksum (List.zipWith (fun x y => x ^^^ y) s t) = checksum s ^^^ checksum t)

/-- R89: appending the checksum leaves the residue 0x00, so the decoder's test on a complete body is the residue test. -/
def Obligations.MatchingBodyLeavesNoResidue : Prop :=
  (∀ m : List Byte, checksum (m ++ [checksum m]) = 0x00) ∧
  (∀ (messageId length : Byte) (body : List Byte), body.length = length.toNat + 1 →
    (checksumMatches messageId length body = true ↔ checksum ([messageId, length] ++ body) = 0x00))

/-- R90: bit 0 of the shift step's result is bit 7 of its argument; the shift step and the byte step (in either argument) are bijections, so two sequences that differ in exactly one
byte have different checksums. -/
def Obligations.OneByteChangeChangesTheChecksum : Prop :=
  (∀ a : Byte, (crc8Bit a).getLsbD 0 = a.getLsbD 7) ∧
  Function.Bijective crc8Bit ∧
  (∀ b : Byte, Function.Bijective (fun a => crc8Byte a b)) ∧
  (∀ a : Byte, Function.Bijective (fun b => crc8Byte a b)) ∧
  (∀ (p q : List Byte) (a b : Byte), a ≠ b → checksum (p ++ a :: q) ≠ checksum (p ++ b :: q))

/-- R91: zeros have checksum 0x00, leading zeros leave the accumulator at its initial value, and so the five bytes
`55 AA 00 00 00` are a frame the decoder emits. -/
def Obligations.LeadingZerosDoNotCount : Prop :=
  (∀ n : Nat, checksum (List.replicate n 0x00) = 0x00) ∧
  (∀ (n : Nat) (s : List Byte), checksum (List.replicate n 0x00 ++ s) = checksum s) ∧
  encodeFrame 0x00 [] = .ok [0x55, 0xAA, 0x00, 0x00, 0x00] ∧
  decFeedn .seekPreamble1 [0x55, 0xAA, 0x00, 0x00, 0x00] = (.seekPreamble1, [.frame 0x00 []])

/-! ## The frame encoder -/

/-- R100, R102: up to 64 payload bytes, the response is the frame, in order: preamble, `message_id`, the payload's byte
count, the payload, the checksum over what follows the preamble; above 64 it is `Err(PayloadTooLarge)` with no bytes. Nothing
else changes. -/
def Obligations.EncodeAnswersTheFrameOrTheError : Prop :=
  ∀ (messageId : Byte) (payload : List Byte) (s : State),
    (payload.length ≤ 64 → exec (.encEncode messageId payload) s = .next { s with
      responses := s.responses ++ [.ok
        ([0x55, 0xAA, messageId, BitVec.ofNat 8 payload.length] ++ payload ++
          [checksum ([messageId, BitVec.ofNat 8 payload.length] ++ payload)])] }) ∧
    (64 < payload.length → exec (.encEncode messageId payload) s = .next { s with
      responses := s.responses ++ [.err .payloadTooLarge] })

/-- R151: `PayloadTooLarge` is raised by an ENC.ENCODE request with more than 64 payload bytes and by no other operation; it
is delivered as the encoder's response, not on the event stream, and no state changes. -/
def Obligations.PayloadTooLargeIsTheEncodersAlone : Prop :=
  ∀ (i : Instr) (s t : State), exec i s = .next t →
    (t.responses = s.responses ++ [.err .payloadTooLarge] ↔
      ∃ messageId payload, i = .encEncode messageId payload ∧ 64 < payload.length) ∧
    (t.responses = s.responses ++ [.err .payloadTooLarge] → t = { s with responses := t.responses })

/-- R104: the properties (a) to (f) of every successful result. -/
def Obligations.EncodedFrameLayout : Prop :=
  (∀ (messageId : Byte) (payload f : List Byte), encodeFrame messageId payload = .ok f →
    f.length = payload.length + 5 ∧ 5 ≤ f.length ∧ f.length ≤ 69 ∧
    f[0]? = some 0x55 ∧ f[1]? = some 0xAA ∧ f[2]? = some messageId ∧
    f[3]?.map BitVec.toNat = some payload.length ∧
    (f.drop 4).take payload.length = payload ∧
    f[4 + payload.length]? = some (checksum ((f.drop 2).take (payload.length + 2))) ∧
    payload.length ≤ 64 ∧
    checksum (f.drop 2) = 0x00 ∧
    decFeedn .seekPreamble1 f = (.seekPreamble1, [.frame messageId payload])) ∧
  (∀ (id1 id2 : Byte) (p1 p2 f : List Byte),
    encodeFrame id1 p1 = .ok f → encodeFrame id2 p2 = .ok f → id1 = id2 ∧ p1 = p2)

/-! ## The decoder's rows -/

/-- R113, R114: in `SeekPreamble1`, 0x55 moves to `SeekPreamble2`; any other byte changes nothing and is not reported. -/
def Obligations.SeekPreamble1Rows : Prop :=
  ∀ s : State, s.dec = .seekPreamble1 →
    exec .decFeedS1P1 s = .next { s with dec := .seekPreamble2 } ∧
    ∀ b : Byte, b ≠ 0x55 → exec (.decFeedS1Other b) s = .next s

/-- R116, R117, R118: in `SeekPreamble2`, 0xAA opens a header, 0x55 stays (re-examination is the spec's own decision D6,
log 13), any other byte goes back; no event. -/
def Obligations.SeekPreamble2Rows : Prop :=
  ∀ s : State, s.dec = .seekPreamble2 →
    exec .decFeedS2P2 s = .next { s with dec := .readHeader [] } ∧
    exec .decFeedS2P1 s = .next { s with dec := .seekPreamble2 } ∧
    ∀ b : Byte, b ≠ 0xAA → b ≠ 0x55 → exec (.decFeedS2Other b) s = .next { s with dec := .seekPreamble1 }

/-- R115 (the policy is the spec's own decision D6, log 13): a byte that is not 0xAA is handled in `SeekPreamble2` exactly
as `SeekPreamble1` would handle it; the two policies the rule names differ on exactly one byte, 0x55; and the stream that
tells them apart yields one `Frame`. -/
def Obligations.ReexaminationMattersOnOneByte : Prop :=
  (∀ b : Byte, b ≠ 0xAA → decFeed .seekPreamble2 b = decFeed .seekPreamble1 b) ∧
  (∀ b : Byte, b ≠ 0xAA → (resyncWith .reexamine b ≠ resyncWith .discard b ↔ b = 0x55)) ∧
  decFeedn .seekPreamble1 [0x55, 0x55, 0xAA, 0x01, 0x02, 0x68, 0x69, 0x85] =
    (.seekPreamble1, [.frame 0x01 [0x68, 0x69]])

/-- R119, R120: the first header byte is stored; the second completes the header, whatever its value (that a value above 64
is followed is the spec's own decision D5, log 13), and opens a body with `body_size = length + 1`, from 1 to 256; no event. -/
def Obligations.HeaderRows : Prop :=
  (∀ (b : Byte) (s : State), s.dec = .readHeader [] →
    exec (.decFeedHdrId b) s = .next { s with dec := .readHeader [b] }) ∧
  (∀ (messageId b : Byte) (s : State), s.dec = .readHeader [messageId] →
    exec (.decFeedHdrLen b) s = .next { s with dec := .readBody messageId b [] } ∧
    (DecState.readBody messageId b []).bodySize.map BitVec.toNat = some (b.toNat + 1))

/-- R121: a byte that does not complete the body is appended; no event. -/
def Obligations.BodyMoreAppends : Prop :=
  ∀ (messageId length b : Byte) (body : List Byte) (s : State),
    s.dec = .readBody messageId length body → body.length < length.toNat →
    exec (.decFeedBodyMore b) s = .next { s with dec := .readBody messageId length (body ++ [b]) }

/-- R122, R124: the completing byte equals the recomputed checksum, so `Frame(message_id, payload)` is emitted and the
decoder returns to `SeekPreamble1`. That `Emit` is passed through within the step, and that the event has these two fields,
are the spec's own decisions D3 and D18 (log 13). -/
def Obligations.MatchingBodyEmitsTheFrame : Prop :=
  ∀ (messageId length b : Byte) (body : List Byte) (s : State),
    s.dec = .readBody messageId length body → body.length = length.toNat →
    checksum ([messageId, length] ++ body) = b →
    exec (.decFeedBodyEmit b) s = .next { s with
      dec := .seekPreamble1
      events := s.events ++ [.frame messageId body] }

/-- R123, R124, R153: the completing byte differs from the recomputed checksum, so `ChecksumMismatch` is raised with the
received `message_id` and `length`, the expected and the received checksum, and the assembled bytes are discarded. -/
def Obligations.DifferingBodyRaisesChecksumMismatch : Prop :=
  ∀ (messageId length b : Byte) (body : List Byte) (s : State),
    s.dec = .readBody messageId length body → body.length = length.toNat →
    checksum ([messageId, length] ++ body) ≠ b →
    exec (.decFeedBodyReject b) s = .next { s with
      dec := .seekPreamble1
      events := s.events ++ [.checksumMismatch messageId length (checksum ([messageId, length] ++ body)) b] }

/-- R127, R128 (the spec's own decisions D7 and D8, where the source is silent): a timeout while seeking raises nothing; the
remembered 0x55 does not survive it. -/
def Obligations.TimeoutWhileSeekingIsSilent : Prop :=
  ∀ s : State,
    (s.dec = .seekPreamble1 → exec .decTimeoutS1 s = .next s) ∧
    (s.dec = .seekPreamble2 → exec .decTimeoutS2 s = .next { s with dec := .seekPreamble1 })

/-- R129, R130, R152: a timeout in a header or a body, whatever has been accumulated, raises `IncompletePacket` and discards
the partial state. That the event has no fields is the spec's own decision D9 (log 13). -/
def Obligations.TimeoutInAFrameRaisesIncompletePacket : Prop :=
  ∀ s : State,
    (∀ hdr, s.dec = .readHeader hdr → exec .decTimeoutHdr s = .next { s with
      dec := .seekPreamble1, events := s.events ++ [.incompletePacket] }) ∧
    (∀ messageId length body, s.dec = .readBody messageId length body → exec .decTimeoutBody s = .next { s with
      dec := .seekPreamble1, events := s.events ++ [.incompletePacket] })

/-- R132, R176 (the `Reset` input is the spec's own decision D12): from every state, `Reset` makes the decoder fresh and emits nothing; nothing else is touched. -/
def Obligations.ResetMakesTheDecoderFresh : Prop :=
  ∀ s : State, exec .decReset s = .next { s with dec := State.reset.dec } ∧ State.reset.dec = .seekPreamble1

/-- R131: an empty chunk is no step at all; a chunk is its first byte's step and then the rest of the chunk, with the
events concatenated in order; every chunk runs, changing only the decoder and the event stream; a chunk `s ++ t` is `t` from
the state reached by `s`; and one feed call yields at most one event per five bytes fed, plus one. That a feed call is this
fold is the spec's own decision D11 (log 13); that the model runs a whole chunk in one step is log 7. -/
def Obligations.FeednStepsEachByteInOrder : Prop :=
  (∀ s : State, exec (.decFeedn []) s = .next s) ∧
  (∀ (b : Byte) (t : List Byte) (s : State),
    exec (.decFeedn (b :: t)) s = exec (.decFeedn t) { s with
      dec := (decFeed s.dec b).1, events := s.events ++ (decFeed s.dec b).2 }) ∧
  (∀ (bs : List Byte) (s : State), exec (.decFeedn bs) s = .next { s with
    dec := (decFeedn s.dec bs).1, events := s.events ++ (decFeedn s.dec bs).2 }) ∧
  (∀ (d : DecState) (a b : List Byte),
    decFeedn d (a ++ b) = ((decFeedn (decFeedn d a).1 b).1, (decFeedn d a).2 ++ (decFeedn (decFeedn d a).1 b).2)) ∧
  (∀ (d : DecState) (bs : List Byte), (decFeedn d bs).2.length ≤ bs.length / 5 + 1)

/-- R60, R69, R123, R191 (that FRAME is the arrival of a frame's bytes is the model's choice, log 4): a frame on the wire
whose `length` byte is its payload's count, from 0 to 255, met while seeking, is emitted if its checksum is the recomputed
one, and otherwise reported. -/
def Obligations.FrameOnTheWireIsEmittedOrReported : Prop :=
  ∀ (messageId length check : Byte) (payload : List Byte) (s : State),
    s.dec.Seeking → payload.length = length.toNat →
    exec (.frame messageId length payload check) s = .next { s with
      dec := .seekPreamble1
      events := s.events ++
        [if check = checksum ([messageId, length] ++ payload) then .frame messageId payload
         else .checksumMismatch messageId length (checksum ([messageId, length] ++ payload)) check] }

/-- R60, R70, R131 (log 4): in every state a frame on the wire is the feed call of its bytes, offset 0 first; and so is any
other delivery of bytes on the wire, whether or not they are one frame. -/
def Obligations.FrameIsTheFeedCallOfItsBytes : Prop :=
  (∀ (messageId length check : Byte) (payload : List Byte) (s : State),
    exec (.frame messageId length payload check) s =
      exec (.decFeedn ([0x55, 0xAA, messageId, length] ++ payload ++ [check])) s) ∧
  (∀ (bytes : List Byte) (rest : List Input) (s : State), s.inputs = .wire bytes :: rest →
    step s = exec (.decFeedn bytes) { s with inputs := rest })

/-! ## Selecting and running an operation -/

/-- R66, R67 (that a row run elsewhere is refused by name is the model's choice, log 5): an operation runs exactly in the
modes and on the bytes its row names, and outside them it is refused. -/
def Obligations.OperationsRunExactlyWhereSelected : Prop :=
  ∀ (i : Instr) (s : State),
    (i.applies s.dec = true → ∃ t, exec i s = .next t) ∧
    (i.applies s.dec = false → exec i s = .refused .operationNotSelected)

/-- R66, R125: for every decoder state and every byte exactly one row applies. -/
def Obligations.EveryByteSelectsExactlyOneRow : Prop :=
  ∀ (d : DecState) (b : Byte), ∃! i : Instr, i.WellFormed ∧ i.applies d = true ∧ encode i = .byte b

/-- R60, R66, R67: the input an operation is encoded to selects that operation, with every operand, in every decoder state
in which its row applies. -/
def Obligations.DecodeOfEncodeIsTheOperation : Prop :=
  ∀ (i : Instr) (d : DecState), i.WellFormed → i.applies d = true → decode d (encode i) = i

/-- R60, R66, R67, R70: whatever an input selects is well formed, applies in the decoder's state, and encodes back to it,
except that bytes on the wire that are not one frame select the feed call of these bytes (log 4). -/
def Obligations.SelectedOperationEncodesBack : Prop :=
  ∀ (d : DecState) (x : Input),
    (decode d x).WellFormed ∧ (decode d x).applies d = true ∧
    (encode (decode d x) = x ∨
      ∃ bytes why, x = .wire bytes ∧ decodeWire bytes = .error why ∧ decode d x = .decFeedn bytes)

/-- R60, R61: the bytes read as one frame are exactly those of the wire format, with the fields at their offsets. That the
last byte may be any, so that a frame whose checksum differs from R60's is read as a frame, is the model's choice, log 4
(R70: it "is not 'illegal'; it is a rejected frame"). -/
def Obligations.WireFormatIsExact : Prop :=
  ∀ (bytes : List Byte) (i : Instr), decodeWire bytes = .ok i ↔
    ∃ (messageId length check : Byte) (payload : List Byte),
      payload.length = length.toNat ∧
      bytes = [0x55, 0xAA, messageId, length] ++ payload ++ [check] ∧
      i = .frame messageId length payload check

/-- R113, R116, R60: bytes written out from the spec's encodings select the operations they stand for. That the bytes of a
frame select the operation FRAME is the model's choice, log 4, and how a 32-bit table word is read is the model's choice,
log 6. -/
def Obligations.EncodedWordsSelectTheirOperations : Prop :=
  decode .seekPreamble1 (.byte 0b01010101) = .decFeedS1P1 ∧
  decode .seekPreamble2 (.byte 0b10101010) = .decFeedS2P2 ∧
  decode .seekPreamble2 (.byte 0b01010101) = .decFeedS2P1 ∧
  decode (.readHeader []) (.byte 0b10101010) = (.decFeedHdrId 0xAA) ∧
  decode (.readBody 0x01 0x02 [0x68, 0x69]) (.byte 0b10000101) = (.decFeedBodyEmit 0x85) ∧
  decode .seekPreamble1
    (.wire [0b01010101, 0b10101010, 0b00000001, 0b00000010, 0b01101000, 0b01101001, 0b10000101]) =
      (.frame 0x01 0x02 [0x68, 0x69] 0x85) ∧
  decodeTableWord 32 0b01010101101010100000000100000000 = some (.frame 0x01 0x00 [] 0x00)

/-- R41, R110: the step is the operation that the oldest pending input selects, with the input taken and the rest of the
queue kept; with nothing pending the block is idle (R165; log 2). -/
def Obligations.StepRunsTheSelectedOperation : Prop :=
  (∀ (s : State) (x : Input) (rest : List Input),
    s.inputs = x :: rest → step s = exec (decode s.dec x) { s with inputs := rest }) ∧
  (∀ s : State, s.inputs = [] → step s = .next s)

/-- R110, R164: in every state, whatever input is pending, the step answers a next state: it never faults and never
refuses. -/
def Obligations.EveryInputIsTaken : Prop :=
  (∀ s : State, ∃ t, step s = .next t) ∧
  (∀ (s : State) (r : Fault), step s ≠ .fault r) ∧
  (∀ (s : State) (r : Refusal), step s ≠ .refused r)

/-- R111, R126: the step on a byte is `dec_feed` and the step on a timeout is `dec_timeout`, from every decoder state: the
rows agree with the single definition. -/
def Obligations.RowsAgreeWithTheStepFunctions : Prop :=
  (∀ (s : State) (b : Byte) (rest : List Input), s.inputs = .byte b :: rest →
    step s = .next { s with
      inputs := rest, dec := (decFeed s.dec b).1, events := s.events ++ (decFeed s.dec b).2 }) ∧
  (∀ (s : State) (rest : List Input), s.inputs = .timeout :: rest →
    step s = .next { s with
      inputs := rest, dec := (decTimeout s.dec).1, events := s.events ++ (decTimeout s.dec).2 })

/-- How the model presents a table word (log 6): the very next step runs the operation the decoder reads from it. -/
def Obligations.TableWordRunsNext : Prop :=
  ∀ (s : State) (nbits w : Nat) (i : Instr), decodeTableWord nbits w = some i →
    step (s.withFetchWord nbits w) = exec i { s with dec := tableState nbits w s.dec }

/-! ## Rules about the whole block -/

/-- The invariant of R36 (and R69, R104, R123 for what has been emitted) holds at reset. -/
def Obligations.InvariantHoldsAtReset : Prop := State.reset.Inv

/-- R36, R69, R104, R123: every step keeps the invariant, from every state that meets it. -/
def Obligations.EveryStepKeepsTheInvariant : Prop :=
  ∀ s t : State, s.Inv → step s = .next t → t.Inv

/-- R36: every byte held in `dec.hdr` or `dec.body` arrived after the preamble pair that opened the header, in arrival
order, with no byte skipped. Every step keeps this, the history growing by the bytes the step delivers; a timeout or a reset
empties the decoder; and of a fresh decoder, that pair was met while seeking. -/
def Obligations.HeldBytesFollowTheOpeningPreamble : Prop :=
  (∀ (s t : State) (history : List Byte), s.Inv → s.dec.HeldOf history → step s = .next t →
    t.dec.HeldOf (history ++ s.nextDelivered)) ∧
  (∀ (s t : State) (rest : List Input), s.inputs = .timeout :: rest ∨ s.inputs = .reset :: rest → step s = .next t →
    t.dec = .seekPreamble1) ∧
  (∀ (bs hdr : List Byte), (decFeedn .seekPreamble1 bs).1 = .readHeader hdr →
    ∃ pre, bs = pre ++ [0x55, 0xAA] ++ hdr ∧ (decFeedn .seekPreamble1 pre).1.Seeking) ∧
  (∀ (bs body : List Byte) (messageId length : Byte),
    (decFeedn .seekPreamble1 bs).1 = .readBody messageId length body →
    ∃ pre, bs = pre ++ [0x55, 0xAA, messageId, length] ++ body ∧ (decFeedn .seekPreamble1 pre).1.Seeking)

/-- R34, R175: after reset the decoder is fresh and nothing has been emitted (that nothing is pending, and `crc.acc` before
the first computation, are the model's choices, logs 1 and 3). -/
def Obligations.ResetStateIsFresh : Prop :=
  State.reset.dec = .seekPreamble1 ∧ State.reset.dec.mode = .seekPreamble1 ∧
  State.reset.events = [] ∧ State.reset.crcAcc = 0x00 ∧
  State.reset.inputs = [] ∧ State.reset.responses = [] ∧ State.reset.crcResults = []

/-- R41, R42: one input is taken per step, in order, and nothing already emitted or answered is withdrawn, merged or
reordered. -/
def Obligations.StreamsOnlyGrow : Prop :=
  ∀ s t : State, step s = .next t →
    t.inputs = s.inputs.tail ∧ s.events <+: t.events ∧ s.responses <+: t.responses ∧
    s.crcResults <+: t.crcResults

/-- R138: the events of one step, and the five byte steps that separate two frames' outcomes. -/
def Obligations.AtMostOneEventPerStep : Prop :=
  (∀ (s t : State) (x : Input) (rest : List Input),
    s.inputs = x :: rest → DecoderItem x → step s = .next t →
    ∃ es : List Event, t.events = s.events ++ es ∧ es.length ≤ 1 ∧
      (es ≠ [] → t.dec = .seekPreamble1) ∧
      (∀ e ∈ es, e ≠ .incompletePacket → (∃ b, x = .byte b) ∧ s.dec.mode = .readBody) ∧
      (∀ e ∈ es, e = .incompletePacket →
        x = .timeout ∧ (s.dec.mode = .readHeader ∨ s.dec.mode = .readBody))) ∧
  (∀ (s t : State) (xs : List Input), s.dec = .seekPreamble1 → s.inputs = xs → (∀ x ∈ xs, DecoderItem x) →
    (xs.filter (fun x => x ≠ .timeout ∧ x ≠ .reset)).length < 5 → run xs.length s = .next t →
    ∃ es : List Event, t.events = s.events ++ es ∧ ∀ e ∈ es, e = .incompletePacket)

/-- R157, R151: entering an error appends the event (or answers the error), discards the partial state and returns to
`SeekPreamble1`, within the step that consumed the input, and changes nothing else. -/
def Obligations.ErrorEntryChangesNothingElse : Prop :=
  (∀ (s t : State) (x : Input) (rest : List Input) (e : Event),
    s.inputs = x :: rest → DecoderItem x → step s = .next t → t.events = s.events ++ [e] →
    t = { s with inputs := rest, dec := .seekPreamble1, events := s.events ++ [e] }) ∧
  (∀ (s : State) (messageId : Byte) (payload : List Byte) (rest : List Input),
    s.inputs = .encode messageId payload :: rest → 64 < payload.length →
    step s = .next { s with inputs := rest, responses := s.responses ++ [.err .payloadTooLarge] })

/-- R156: a completing byte before a timeout gives the frame's outcome and then nothing; the timeout first gives
`IncompletePacket`, and the byte then arrives in `SeekPreamble1`. -/
def Obligations.OrderOfByteAndTimeoutDecides : Prop :=
  ∀ (s : State) (messageId length b : Byte) (body : List Byte) (rest : List Input),
    s.dec = .readBody messageId length body → body.length = length.toNat →
    run 2 { s with inputs := .byte b :: .timeout :: rest } = .next { s with
      inputs := rest
      dec := .seekPreamble1
      events := s.events ++
        [if checksum ([messageId, length] ++ body) = b then .frame messageId body
         else .checksumMismatch messageId length (checksum ([messageId, length] ++ body)) b] } ∧
    run 2 { s with inputs := .timeout :: .byte b :: rest } = .next { s with
      inputs := rest
      dec := if b = 0x55 then .seekPreamble2 else .seekPreamble1
      events := s.events ++ [.incompletePacket] }

/-- R49 (d), (e), R162, R176: an operation of one agent leaves the state and the streams of the others alone, and what it
does to its own depends on nothing of theirs. That an operation of the encoder or the decoder leaves `crc.acc` as it was is
the model's reading of R21, R28 and D14 (log 11). -/
def Obligations.AgentsDoNotInteract : Prop :=
  (∀ (i : Instr) (s t : State), exec i s = .next t →
    t.inputs = s.inputs ∧
    (i.agent ≠ .dec → t.dec = s.dec ∧ t.events = s.events) ∧
    (i.agent ≠ .enc → t.responses = s.responses) ∧
    (i.agent ≠ .crc → t.crcAcc = s.crcAcc ∧ t.crcResults = s.crcResults)) ∧
  (∀ (i : Instr) (s t s' t' : State), exec i s = .next t → exec i s' = .next t' →
    (i.agent = .dec → s.dec = s'.dec → t.dec = t'.dec ∧
      ∃ es, t.events = s.events ++ es ∧ t'.events = s'.events ++ es) ∧
    (i.agent = .enc → ∃ r, t.responses = s.responses ++ [r] ∧ t'.responses = s'.responses ++ [r]) ∧
    (i.agent = .crc → s.crcAcc = s'.crcAcc → t.crcAcc = t'.crcAcc ∧
      ∃ cs, t.crcResults = s.crcResults ++ cs ∧ t'.crcResults = s'.crcResults ++ cs))

/-- R121, R184: once a header is open, the next `length` bytes, whatever they are, are absorbed with no event; that holds a
frame that lies inside them. -/
def Obligations.OpenBodyAbsorbsSilently : Prop :=
  ∀ (messageId length : Byte) (bs : List Byte), bs.length ≤ length.toNat →
    decFeedn .seekPreamble1 ([0x55, 0xAA, messageId, length] ++ bs) = (.readBody messageId length bs, [])

/-- R159: from every state a timeout or a reset leads to `SeekPreamble1`, after which a valid frame produces its `Frame`;
and without either, a decoder in a header or a body is back in `SeekPreamble1` after at most 2 + 256 bytes of any values. -/
def Obligations.DecoderAlwaysRecovers : Prop :=
  (∀ d : DecState, (decTimeout d).1 = .seekPreamble1) ∧
  (∀ (s : State) (messageId : Byte) (payload f : List Byte) (x : Input) (rest : List Input),
    encodeFrame messageId payload = .ok f → x = .timeout ∨ x = .reset →
    run 2 { s with inputs := x :: .chunk f :: rest } = .next { s with
      inputs := rest
      dec := .seekPreamble1
      events := s.events ++ (if x = .timeout then (decTimeout s.dec).2 else []) ++ [.frame messageId payload] }) ∧
  (∀ (d : DecState) (bs : List Byte), d.mode = .readHeader ∨ d.mode = .readBody → bs.length = 258 →
    ∃ k, 1 ≤ k ∧ k ≤ 258 ∧ (decFeedn d (bs.take k)).1 = .seekPreamble1)

/-- R135, R144: feeding the chunks in order, feeding their concatenation at once and feeding the bytes one at a time
give the same events in the same order and the same end state, from every state; a timeout between two chunks can change
the result. -/
def Obligations.ChunkBoundariesMakeNoDifference : Prop :=
  (∀ (s : State) (chunks : List (List Byte)) (rest : List Input),
    run chunks.length { s with inputs := bulkSource chunks ++ rest } =
      run 1 { s with inputs := .chunk chunks.flatten :: rest } ∧
    run chunks.flatten.length { s with inputs := perByteSource chunks ++ rest } =
      run 1 { s with inputs := .chunk chunks.flatten :: rest }) ∧
  (∃ (s : State) (a b : List Byte),
    run 3 { s with inputs := [.chunk a, .timeout, .chunk b] } ≠ run 2 { s with inputs := [.chunk a, .chunk b] })

/-- R134: decoding the encoding of `(message_id, payload)` yields exactly `(message_id, payload)`, from `SeekPreamble1` and
from `SeekPreamble2`, and not in general from a header or a body. -/
def Obligations.RoundTrip : Prop :=
  (∀ (messageId : Byte) (payload : List Byte) (s : State), payload.length ≤ 64 → s.dec.Seeking →
    ∃ f, exec (.encEncode messageId payload) s = .next { s with responses := s.responses ++ [.ok f] } ∧
      exec (.decFeedn f) s = .next { s with
        dec := .seekPreamble1, events := s.events ++ [.frame messageId payload] }) ∧
  (∃ (messageId : Byte) (payload f hdr : List Byte), encodeFrame messageId payload = .ok f ∧
    decFeedn (.readHeader hdr) f ≠ (.seekPreamble1, [.frame messageId payload])) ∧
  (∃ (messageId id len : Byte) (payload f body : List Byte), encodeFrame messageId payload = .ok f ∧
    body.length ≤ len.toNat ∧
    decFeedn (.readBody id len body) f ≠ (.seekPreamble1, [.frame messageId payload]))

/-- R136: noise before a frame leaves exactly that one frame, for every frame, exactly when no 0x55 in the noise is
immediately followed by 0xAA. -/
def Obligations.ResynchronisationIsExact : Prop :=
  ∀ noise : List Byte,
    (∀ (messageId : Byte) (payload f : List Byte), encodeFrame messageId payload = .ok f →
      decFeedn .seekPreamble1 (noise ++ f) = (.seekPreamble1, [.frame messageId payload])) ↔
    ¬ [0x55, 0xAA] <:+: noise

/-- R137: one byte of an encoding changed by any non-zero pattern. (a) In `message_id`, the payload or the checksum: exactly
one event, a `ChecksumMismatch` with the received fields. (b) In `length`: a larger one leaves the decoder waiting with no
event until a timeout; a smaller one completes the frame early, taking a payload byte as the checksum, and can give a false
`Frame`. (c) In the preamble: no event, unless the bytes hold another
preamble pair. -/
def Obligations.SingleByteCorruption : Prop :=
  (∀ (messageId e : Byte) (payload f : List Byte), encodeFrame messageId payload = .ok f → e ≠ 0 →
    (∀ k : Nat, k = 2 ∨ (4 ≤ k ∧ k ≤ 4 + payload.length) →
      ∃ expected received, expected ≠ received ∧
        decFeedn .seekPreamble1 (f.set k (f.getD k 0 ^^^ e)) =
          (.seekPreamble1, [.checksumMismatch (if k = 2 then messageId ^^^ e else messageId)
            (BitVec.ofNat 8 payload.length) expected received])) ∧
    (payload.length < (f.getD 3 0 ^^^ e).toNat →
      ∃ body, decFeedn .seekPreamble1 (f.set 3 (f.getD 3 0 ^^^ e)) =
          (.readBody messageId (f.getD 3 0 ^^^ e) body, []) ∧
        decTimeout (.readBody messageId (f.getD 3 0 ^^^ e) body) = (.seekPreamble1, [.incompletePacket])) ∧
    ((f.getD 3 0 ^^^ e).toNat < payload.length →
      ∃ event, event ≠ .incompletePacket ∧
        decFeedn .seekPreamble1 ((f.set 3 (f.getD 3 0 ^^^ e)).take (5 + (f.getD 3 0 ^^^ e).toNat)) =
          (.seekPreamble1, [event])) ∧
    (∀ k : Nat, k < 2 → ¬ [0x55, 0xAA] <:+: f.set k (f.getD k 0 ^^^ e) →
      (decFeedn .seekPreamble1 (f.set k (f.getD k 0 ^^^ e))).2 = [])) ∧
  (encodeFrame 0x01 [0x15, 0x99] = .ok [0x55, 0xAA, 0x01, 0x02, 0x15, 0x99, 0x10] ∧
    decFeedn .seekPreamble1 [0x55, 0xAA, 0x01, 0x00, 0x15, 0x99, 0x10] = (.seekPreamble1, [.frame 0x01 []]))

/-- R142, R143: a round of the byte source's loop feeds the chunk and then, exactly when the policy judges that the wait
elapsed, one timeout; under either policy the decoder's behaviour is that of R127 to R130. -/
def Obligations.ByteSourceRound : Prop :=
  (∀ (maxBytes : Nat) (chunk : List Byte),
    (elapsed .onEmptyRead maxBytes chunk = true ↔ chunk = []) ∧
    (elapsed .onShortRead maxBytes chunk = true ↔ chunk.length < maxBytes)) ∧
  (∀ (policy : Config.TimeoutPolicy) (maxBytes : Nat) (chunk : List Byte) (s : State) (rest : List Input),
    run (presentRead policy maxBytes chunk).length { s with inputs := presentRead policy maxBytes chunk ++ rest } =
      .next (if elapsed policy maxBytes chunk = true then { s with
          inputs := rest
          dec := .seekPreamble1
          events := s.events ++ (decFeedn s.dec chunk).2 ++ (decTimeout (decFeedn s.dec chunk).1).2 }
        else { s with
          inputs := rest
          dec := (decFeedn s.dec chunk).1
          events := s.events ++ (decFeedn s.dec chunk).2 }))

/-- R141: what the caller writes is the whole frame, in order, for `Ok`, and nothing for `Err`; and what it writes decodes to
what was asked. -/
def Obligations.WrittenBytesDecode : Prop :=
  ∀ (messageId : Byte) (payload : List Byte),
    (64 < payload.length → bytesToWrite (encodeFrame messageId payload) = none) ∧
    (payload.length ≤ 64 → ∃ f, bytesToWrite (encodeFrame messageId payload) = some f ∧
      decFeedn .seekPreamble1 f = (.seekPreamble1, [.frame messageId payload]))

/-- R22, R154: the codes the spec suggests, its own choice (D10); nothing observable depends on them. -/
def Obligations.SuggestedCodes : Prop :=
  (∀ m : Mode, m.code.toNat = match m with
    | .seekPreamble1 => 0
    | .seekPreamble2 => 1
    | .readHeader => 2
    | .readBody => 3) ∧
  eventKind none = 0 ∧
  (∀ messageId payload, eventKind (some (.frame messageId payload)) = 1) ∧
  (∀ messageId length expected received,
    eventKind (some (.checksumMismatch messageId length expected received)) = 2) ∧
  eventKind (some .incompletePacket) = 3 ∧
  (∀ bytes, outcomeCode (.ok bytes) = 0) ∧ (∀ e, outcomeCode (.err e) = 1)
end

