-- ==== Sys2Proof/Laws/State.lean ====
section
/-! SUPPORT. One lemma per field per update of State, each true by `rfl`. -/

namespace Sys2Proof.Machine.State

variable (s : State)

@[simp] theorem setCrcAcc_crcAcc (a : Byte) : (s.setCrcAcc a).crcAcc = a := rfl
@[simp] theorem setCrcAcc_dec (a : Byte) : (s.setCrcAcc a).dec = s.dec := rfl
@[simp] theorem setCrcAcc_inputs (a : Byte) : (s.setCrcAcc a).inputs = s.inputs := rfl
@[simp] theorem setCrcAcc_events (a : Byte) : (s.setCrcAcc a).events = s.events := rfl
@[simp] theorem setCrcAcc_responses (a : Byte) : (s.setCrcAcc a).responses = s.responses := rfl
@[simp] theorem setCrcAcc_crcResults (a : Byte) : (s.setCrcAcc a).crcResults = s.crcResults := rfl

@[simp] theorem setDec_crcAcc (d : DecState) : (s.setDec d).crcAcc = s.crcAcc := rfl
@[simp] theorem setDec_dec (d : DecState) : (s.setDec d).dec = d := rfl
@[simp] theorem setDec_inputs (d : DecState) : (s.setDec d).inputs = s.inputs := rfl
@[simp] theorem setDec_events (d : DecState) : (s.setDec d).events = s.events := rfl
@[simp] theorem setDec_responses (d : DecState) : (s.setDec d).responses = s.responses := rfl
@[simp] theorem setDec_crcResults (d : DecState) : (s.setDec d).crcResults = s.crcResults := rfl

@[simp] theorem setInputs_crcAcc (q : List Input) : (s.setInputs q).crcAcc = s.crcAcc := rfl
@[simp] theorem setInputs_dec (q : List Input) : (s.setInputs q).dec = s.dec := rfl
@[simp] theorem setInputs_inputs (q : List Input) : (s.setInputs q).inputs = q := rfl
@[simp] theorem setInputs_events (q : List Input) : (s.setInputs q).events = s.events := rfl
@[simp] theorem setInputs_responses (q : List Input) : (s.setInputs q).responses = s.responses := rfl
@[simp] theorem setInputs_crcResults (q : List Input) : (s.setInputs q).crcResults = s.crcResults := rfl

@[simp] theorem emit_crcAcc (es : List Event) : (s.emit es).crcAcc = s.crcAcc := rfl
@[simp] theorem emit_dec (es : List Event) : (s.emit es).dec = s.dec := rfl
@[simp] theorem emit_inputs (es : List Event) : (s.emit es).inputs = s.inputs := rfl
@[simp] theorem emit_events (es : List Event) : (s.emit es).events = s.events ++ es := rfl
@[simp] theorem emit_responses (es : List Event) : (s.emit es).responses = s.responses := rfl
@[simp] theorem emit_crcResults (es : List Event) : (s.emit es).crcResults = s.crcResults := rfl

@[simp] theorem respond_crcAcc (r : EncodeResponse) : (s.respond r).crcAcc = s.crcAcc := rfl
@[simp] theorem respond_dec (r : EncodeResponse) : (s.respond r).dec = s.dec := rfl
@[simp] theorem respond_inputs (r : EncodeResponse) : (s.respond r).inputs = s.inputs := rfl
@[simp] theorem respond_events (r : EncodeResponse) : (s.respond r).events = s.events := rfl
@[simp] theorem respond_responses (r : EncodeResponse) : (s.respond r).responses = s.responses ++ [r] := rfl
@[simp] theorem respond_crcResults (r : EncodeResponse) : (s.respond r).crcResults = s.crcResults := rfl

@[simp] theorem report_crcAcc (c : Byte) : (s.report c).crcAcc = s.crcAcc := rfl
@[simp] theorem report_dec (c : Byte) : (s.report c).dec = s.dec := rfl
@[simp] theorem report_inputs (c : Byte) : (s.report c).inputs = s.inputs := rfl
@[simp] theorem report_events (c : Byte) : (s.report c).events = s.events := rfl
@[simp] theorem report_responses (c : Byte) : (s.report c).responses = s.responses := rfl
@[simp] theorem report_crcResults (c : Byte) : (s.report c).crcResults = s.crcResults ++ [c] := rfl

@[simp] theorem raise_crcAcc (e : Event) : (s.raise e).crcAcc = s.crcAcc := rfl
@[simp] theorem raise_dec (e : Event) : (s.raise e).dec = .seekPreamble1 := rfl
@[simp] theorem raise_inputs (e : Event) : (s.raise e).inputs = s.inputs := rfl
@[simp] theorem raise_events (e : Event) : (s.raise e).events = s.events ++ [e] := rfl
@[simp] theorem raise_responses (e : Event) : (s.raise e).responses = s.responses := rfl
@[simp] theorem raise_crcResults (e : Event) : (s.raise e).crcResults = s.crcResults := rfl

@[simp] theorem raiseEncode_crcAcc (e : EncodeError) : (s.raiseEncode e).crcAcc = s.crcAcc := rfl
@[simp] theorem raiseEncode_dec (e : EncodeError) : (s.raiseEncode e).dec = s.dec := rfl
@[simp] theorem raiseEncode_inputs (e : EncodeError) : (s.raiseEncode e).inputs = s.inputs := rfl
@[simp] theorem raiseEncode_events (e : EncodeError) : (s.raiseEncode e).events = s.events := rfl
@[simp] theorem raiseEncode_responses (e : EncodeError) : (s.raiseEncode e).responses = s.responses ++ [.err e] := rfl
@[simp] theorem raiseEncode_crcResults (e : EncodeError) : (s.raiseEncode e).crcResults = s.crcResults := rfl

@[simp] theorem deliver_crcAcc (r : DecState × List Event) : (s.deliver r).crcAcc = s.crcAcc := rfl
@[simp] theorem deliver_dec (r : DecState × List Event) : (s.deliver r).dec = r.1 := rfl
@[simp] theorem deliver_inputs (r : DecState × List Event) : (s.deliver r).inputs = s.inputs := rfl
@[simp] theorem deliver_events (r : DecState × List Event) : (s.deliver r).events = s.events ++ r.2 := rfl
@[simp] theorem deliver_responses (r : DecState × List Event) : (s.deliver r).responses = s.responses := rfl
@[simp] theorem deliver_crcResults (r : DecState × List Event) : (s.deliver r).crcResults = s.crcResults := rfl

end Sys2Proof.Machine.State
end

