-- ==== Sys2Proof/Laws/Ops.lean ====
section
/-! SUPPORT. What each shared operation can do, said once: the checksum's accumulator, the body's arithmetic, one step of a run, and the inversion of a step. -/

namespace Sys2Proof.Machine


@[simp] theorem absorb_nil (a : Byte) : absorb a [] = a := rfl
@[simp] theorem absorb_cons (a b : Byte) (t : List Byte) : absorb a (b :: t) = absorb (crc8Byte a b) t := rfl

/-- Absorbing goes on from any accumulator. -/
theorem absorb_append (a : Byte) (s t : List Byte) : absorb a (s ++ t) = absorb (absorb a s) t := by
  simp [absorb, List.foldl_append]

/-- A byte acts only through its XOR with the accumulator. -/
theorem crc8Byte_eq_bits (a b : Byte) : crc8Byte a b = crc8Bits 8 (a ^^^ b) := rfl

/-- `body_size` does not wrap. -/
theorem bodySize_toNat (length : Byte) : (bodySize length).toNat = length.toNat + 1 := by
  have := length.isLt
  simp only [bodySize, BitVec.toNat_add, BitVec.truncate_eq_setWidth, BitVec.toNat_setWidth]
  simp
  omega

/-- The next byte completes the body exactly when `length` bytes are stored (or more, in states no run reaches). -/
theorem bodyCompletes_iff (length : Byte) (body : List Byte) :
    bodyCompletes length body = true ↔ length.toNat ≤ body.length := by
  simp [bodyCompletes, bodySize_toNat]

/-- The `length` byte of a payload that fits is its byte count. -/
theorem lengthByte_toNat {payload : List Byte} (h : payload.length ≤ 255) :
    (lengthByte payload).toNat = payload.length := by
  simp [lengthByte]; omega

/-- A frame is its payload and `OVERHEAD_BYTES` (R5, R61). -/
theorem frameBytes_length (messageId length : Byte) (payload : List Byte) (check : Byte) :
    (frameBytes messageId length payload check).length = payload.length + Config.overheadBytes := by
  simp [frameBytes, Config.overheadBytes]

/-- There is no final XOR and no reflection (R5, R82): the checksum is the accumulator as it stands. -/
theorem checksum_eq_absorb_xorOut (s : List Byte) :
    checksum s = absorb Config.crcInit s ^^^ Config.crcXorOut ∧ Config.crcReflect = false := by
  simp [checksum]

/-- In a state that meets the invariant the header's target count is never stored, and the body with the byte that
completes it fits the assembly buffer (R23, R25, R26). -/
theorem inv_fits_buffers {d : DecState} (h : d.Inv) :
    (∀ hdr ∈ d.hdr, hdr.length < Config.headerBytes) ∧
    (∀ n ∈ d.count, n < Config.decBufBytes) := by
  cases d with
  | seekPreamble1 => simp [DecState.hdr, DecState.count]
  | seekPreamble2 => simp [DecState.hdr, DecState.count]
  | readHeader hdr =>
    have : hdr.length ≤ 1 := h
    simp [DecState.hdr, DecState.count, Config.headerBytes]; omega
  | readBody messageId length body =>
    have : body.length ≤ length.toNat := h
    have := length.isLt
    simp [DecState.hdr, DecState.count, Config.decBufBytes]; omega

/-- The payload of a body completed by `b`. -/
theorem bodyPayload_append {length : Byte} {body : List Byte} (h : body.length = length.toNat) (b : Byte) :
    bodyPayload length (body ++ [b]) = body := by
  simp [bodyPayload, ← h]

/-- The received checksum of a body completed by `b`. -/
theorem bodyReceived_append {length : Byte} {body : List Byte} (h : body.length = length.toNat) (b : Byte) :
    bodyReceived length (body ++ [b]) = b := by
  simp [bodyReceived, ← h]

/-- The checksum test of a body completed by `b`. -/
theorem checksumMatches_append {messageId length : Byte} {body : List Byte}
    (h : body.length = length.toNat) (b : Byte) :
    checksumMatches messageId length (body ++ [b]) = (checksum (coverage messageId length body) == b) := by
  simp [checksumMatches, bodyExpected, bodyPayload_append h, bodyReceived_append h]

@[simp] theorem decFeedn_nil (d : DecState) : decFeedn d [] = (d, []) := rfl

theorem decFeedn_cons (d : DecState) (b : Byte) (t : List Byte) :
    decFeedn d (b :: t) = ((decFeedn (decFeed d b).1 t).1, (decFeed d b).2 ++ (decFeedn (decFeed d b).1 t).2) := rfl

/-- A byte that does not complete the body is appended. -/
theorem decFeed_more {messageId length b : Byte} {body : List Byte} (h : body.length < length.toNat) :
    decFeed (.readBody messageId length body) b = (.readBody messageId length (body ++ [b]), []) := by
  have : bodyCompletes length body = false := by
    rw [← Bool.not_eq_true, bodyCompletes_iff]; omega
  simp [decFeed, this]

/-- The byte that completes the body decides between the two events by one comparison. -/
theorem decFeed_last {messageId length b : Byte} {body : List Byte} (h : body.length = length.toNat) :
    decFeed (.readBody messageId length body) b =
      (.seekPreamble1,
        [if b = checksum (coverage messageId length body) then .frame messageId body
         else .checksumMismatch messageId length (checksum (coverage messageId length body)) b]) := by
  have hc : bodyCompletes length body = true := by rw [bodyCompletes_iff]; omega
  simp only [decFeed, hc, checksumMatches_append h, bodyPayload_append h, bodyReceived_append h, bodyExpected]
  by_cases he : b = checksum (coverage messageId length body)
  · simp [← he]
  · simp [he, Ne.symm he]

/-- A preamble pair met while seeking, and the two header bytes, open a body. -/
theorem decFeedn_open {d : DecState} (hd : d.Seeking) (messageId length : Byte) (bs : List Byte) :
    decFeedn d (Config.preamble1 :: Config.preamble2 :: messageId :: length :: bs) =
      decFeedn (.readBody messageId length []) bs := by
  have h1 : decFeed d Config.preamble1 = (.seekPreamble2, []) := by rcases hd with rfl | rfl <;> rfl
  rw [decFeedn_cons, h1]
  rfl

/-- The encoder's success, as one equation. -/
theorem encodeFrame_of_le {messageId : Byte} {payload : List Byte} (h : payload.length ≤ 64) :
    encodeFrame messageId payload = .ok (frameBytes messageId (lengthByte payload) payload
      (checksum (coverage messageId (lengthByte payload) payload))) := by
  have : ¬ 64 < payload.length := by omega
  simp [encodeFrame, this]

@[simp] theorem run_zero (s : State) : run 0 s = .next s := rfl

/-- A run goes on from the state its first step answers. -/
theorem run_succ_of_next {s t : State} (h : step s = .next t) (k : Nat) : run (k + 1) s = run k t := by
  simp [run, h]

/-- The run of this model is the host's. -/
theorem run_eq_host (k : Nat) (s : State) : run k s = Host.Core.run Sys2Proof.core k s := by
  induction k generalizing s with
  | zero => rfl
  | succ k ih =>
    have hcore : Sys2Proof.core.step s = step s := rfl
    cases h : step s with
    | next t => rw [run_succ_of_next h, ih]; simp only [Host.Core.run, hcore, h]; rfl
    | fault r => simp only [run, Host.Core.run, hcore, h]; rfl
    | refused r => simp only [run, Host.Core.run, hcore, h]; rfl

/-- A step with an input pending runs the operation the input selects. -/
theorem step_of_inputs {s : State} {x : Input} {rest : List Input} (hx : s.inputs = x :: rest) :
    step s = exec (decode s.dec x) (s.setInputs rest) := by
  simp [step, hx]

/-- A step with nothing pending is idle. -/
theorem step_idle {s : State} (hx : s.inputs = []) : step s = .next s := by
  simp [step, hx]

/-- Bytes on the wire select FRAME or their feed call, which do the same. -/
theorem selectWire_cases (bytes : List Byte) :
    (∃ i, decodeWire bytes = .ok i ∧ selectWire bytes = i) ∨
    (∃ why, decodeWire bytes = .error why ∧ selectWire bytes = .decFeedn bytes) := by
  unfold selectWire
  cases h : decodeWire bytes with
  | ok i => exact .inl ⟨i, rfl, rfl⟩
  | error why => exact .inr ⟨why, rfl, rfl⟩

/-- With nothing pending the next step delivers no byte. -/
theorem nextDelivered_of_nil {s : State} (hx : s.inputs = []) : s.nextDelivered = [] := by
  simp [State.nextDelivered, hx]

/-- The next step delivers the bytes of the oldest pending input. -/
theorem nextDelivered_of_inputs {s : State} {x : Input} {rest : List Input} (hx : s.inputs = x :: rest) :
    s.nextDelivered = x.delivered := by
  simp [State.nextDelivered, hx]

/-- Only the decoder's inputs deliver bytes. -/
theorem delivered_of_agent {x : Input} (hx : x.agent ≠ .dec) : x.delivered = [] := by
  cases x <;> first | rfl | exact absurd rfl hx

/-- Everything a step that answers next can be. -/
theorem step_cases {s t : State} (h : step s = .next t) :
    (s.inputs = [] ∧ t = s) ∨
    ∃ x rest, s.inputs = x :: rest ∧ exec (decode s.dec x) (s.setInputs rest) = .next t := by
  cases hq : s.inputs with
  | nil => exact .inl ⟨rfl, by simpa [step_idle hq] using h.symm⟩
  | cons x rest => exact .inr ⟨x, rest, rfl, by rwa [step_of_inputs hq] at h⟩

end Sys2Proof.Machine
end

