-- ==== Sys2Proof/Laws/PerInstr.lean ====
section
/-! SUPPORT. The family Ownership: an operation is encoded as an input to the agent that owns it (30_encoding.md R67, 20_memory.md R40). -/

namespace Sys2Proof.Laws.Ownership

def Statement (i : Instr) : Prop := (encode i).agent = i.agent

theorem frame (messageId length : Byte) (payload : List Byte) (checksum : Byte) :
    Statement (.frame messageId length payload checksum) := rfl
theorem crcClear : Statement .crcClear := rfl
theorem crcBit : Statement .crcBit := rfl
theorem crcByte (b : Byte) : Statement (.crcByte b) := rfl
theorem crcSeq (s : List Byte) : Statement (.crcSeq s) := rfl
theorem encEncode (messageId : Byte) (payload : List Byte) : Statement (.encEncode messageId payload) := rfl
theorem decFeedS1P1 : Statement .decFeedS1P1 := rfl
theorem decFeedS1Other (b : Byte) : Statement (.decFeedS1Other b) := rfl
theorem decFeedS2P2 : Statement .decFeedS2P2 := rfl
theorem decFeedS2P1 : Statement .decFeedS2P1 := rfl
theorem decFeedS2Other (b : Byte) : Statement (.decFeedS2Other b) := rfl
theorem decFeedHdrId (b : Byte) : Statement (.decFeedHdrId b) := rfl
theorem decFeedHdrLen (b : Byte) : Statement (.decFeedHdrLen b) := rfl
theorem decFeedBodyMore (b : Byte) : Statement (.decFeedBodyMore b) := rfl
theorem decFeedBodyEmit (b : Byte) : Statement (.decFeedBodyEmit b) := rfl
theorem decFeedBodyReject (b : Byte) : Statement (.decFeedBodyReject b) := rfl
theorem decTimeoutS1 : Statement .decTimeoutS1 := rfl
theorem decTimeoutS2 : Statement .decTimeoutS2 := rfl
theorem decTimeoutHdr : Statement .decTimeoutHdr := rfl
theorem decTimeoutBody : Statement .decTimeoutBody := rfl
theorem decReset : Statement .decReset := rfl
theorem decFeedn (s : List Byte) : Statement (.decFeedn s) := rfl

end Sys2Proof.Laws.Ownership
end

