-- ==== Sys2Proof/Tests/Slice0.lean ====
section
/-! SUPPORT. Tests. Expected results come from spec/95_test_vectors.md and the examples inside the rules, named beside each test. -/

namespace Sys2Proof.Tests

open Sys2Proof.Machine

/-- A small state: the reset state with a decoder state and pending inputs. -/
def st (d : DecState) (q : List Input) : State := (State.reset.setDec d).setInputs q

/-- The next state, if there is one. -/
def next (o : Host.Outcome State Fault Refusal) : Option State :=
  match o with
  | .next t => some t
  | .fault _ => none
  | .refused _ => none

/-- The decoder and the events of the next state. -/
def decOut (o : Host.Outcome State Fault Refusal) : Option (DecState × List Event) :=
  (next o).map fun t => (t.dec, t.events)

/-- The bytes `hi` of section 95: `55 AA 01 02 68 69 85`. -/
def hi : List Byte := [0x55, 0xAA, 0x01, 0x02, 0x68, 0x69, 0x85]

/-! ## Well-formedness: one ill-formed term for each check (R60, R114, R118) -/

theorem test_wf_refuses_payload_length :
    (Instr.frame 0x01 0x02 [0x68] 0x85).illFormed = some .payloadLength := by decide
theorem test_wf_refuses_s1_other_55 :
    (Instr.decFeedS1Other 0x55).illFormed = some .s1OtherIsPreamble1 := by decide
theorem test_wf_refuses_s2_other_AA :
    (Instr.decFeedS2Other 0xAA).illFormed = some .s2OtherIsPreamble2 := by decide
theorem test_wf_refuses_s2_other_55 :
    (Instr.decFeedS2Other 0x55).illFormed = some .s2OtherIsPreamble1 := by decide
theorem test_wf_accepts_hi : (Instr.frame 0x01 0x02 [0x68, 0x69] 0x85).WellFormed := by decide

/-! ## Decoding: every constructor from a word written out from the table (R60, R66, R67) -/

theorem test_decode_frame :
    decode .seekPreamble1 (.wire [0b01010101, 0b10101010, 0b00000001, 0b00000010, 0b01101000, 0b01101001, 0b10000101]) =
      (.frame 0x01 0x02 [0x68, 0x69] 0x85) := by decide
theorem test_decode_crcClear : decode .seekPreamble1 .crcClear = .crcClear := by decide
theorem test_decode_crcBit : decode .seekPreamble1 .crcBit = .crcBit := by decide
theorem test_decode_crcByte : decode .seekPreamble1 (.crcByte 0x01) = (.crcByte 0x01) := by decide
theorem test_decode_crcSeq : decode .seekPreamble1 (.crcSeq [0x55, 0xAA]) = (.crcSeq [0x55, 0xAA]) := by decide
theorem test_decode_encode :
    decode .seekPreamble1 (.encode 0x01 [0x68, 0x69]) = (.encEncode 0x01 [0x68, 0x69]) := by decide
theorem test_decode_s1_p1 : decode .seekPreamble1 (.byte 0b01010101) = .decFeedS1P1 := by decide
theorem test_decode_s1_other : decode .seekPreamble1 (.byte 0b10101010) = (.decFeedS1Other 0xAA) := by decide
theorem test_decode_s2_p2 : decode .seekPreamble2 (.byte 0b10101010) = .decFeedS2P2 := by decide
theorem test_decode_s2_p1 : decode .seekPreamble2 (.byte 0b01010101) = .decFeedS2P1 := by decide
theorem test_decode_s2_other : decode .seekPreamble2 (.byte 0b10101011) = (.decFeedS2Other 0xAB) := by decide
theorem test_decode_hdr_id : decode (.readHeader []) (.byte 0b01010101) = (.decFeedHdrId 0x55) := by decide
theorem test_decode_hdr_len : decode (.readHeader [0x55]) (.byte 0b10101010) = (.decFeedHdrLen 0xAA) := by decide
theorem test_decode_body_more :
    decode (.readBody 0x01 0x02 [0x68]) (.byte 0b01101001) = (.decFeedBodyMore 0x69) := by decide
theorem test_decode_body_emit :
    decode (.readBody 0x01 0x02 [0x68, 0x69]) (.byte 0b10000101) = (.decFeedBodyEmit 0x85) := by decide +kernel
theorem test_decode_body_reject :
    decode (.readBody 0x01 0x02 [0x68, 0x69]) (.byte 0b10000100) = (.decFeedBodyReject 0x84) := by decide +kernel
theorem test_decode_timeout_s1 : decode .seekPreamble1 .timeout = .decTimeoutS1 := by decide
theorem test_decode_timeout_s2 : decode .seekPreamble2 .timeout = .decTimeoutS2 := by decide
theorem test_decode_timeout_hdr : decode (.readHeader [0x01]) .timeout = .decTimeoutHdr := by decide
theorem test_decode_timeout_body : decode (.readBody 0x01 0x02 []) .timeout = .decTimeoutBody := by decide
theorem test_decode_reset : decode (.readBody 0x01 0x02 [0x68]) .reset = .decReset := by decide
theorem test_decode_feedn : decode .seekPreamble1 (.chunk [0x55]) = (.decFeedn [0x55]) := by decide

theorem test_wire_rejects_first_byte : decodeWire [0xAA, 0x55] = .error .preamble1Missing := by decide
theorem test_wire_rejects_second_byte : decodeWire [0x55, 0x55, 0x01, 0x00, 0x15] = .error .preamble2Missing := by decide
theorem test_wire_rejects_cut_header : decodeWire [0x55, 0xAA, 0x01] = .error .headerCut := by decide
theorem test_wire_rejects_cut_body : decodeWire [0x55, 0xAA, 0x01, 0x02, 0x68, 0x69] = .error .bodyCut := by decide
theorem test_wire_rejects_trailing : decodeWire (hi ++ [0x00]) = .error .bytesAfterFrame := by decide
/-- Bytes on the wire that are no frame are fed, not refused: V-D5. -/
theorem test_wire_of_noise_runs :
    decOut (step (st .seekPreamble1 [.wire ([0x00, 0xFF, 0xAA, 0x55, 0x00, 0xAA, 0xAA, 0x13] ++ hi)])) =
      some (.seekPreamble1, [.frame 0x01 [0x68, 0x69]]) := by decide +kernel

/-! ## Table words (opcode_table.json) -/

theorem test_table_word_s1_p1 : decodeTableWord 8 0x55 = some .decFeedS1P1 := by decide
theorem test_table_word_s2_p2 : decodeTableWord 8 0xAA = some .decFeedS2P2 := by decide
theorem test_table_word_s1_other : decodeTableWord 8 0x00 = some (.decFeedS1Other 0x00) := by decide
theorem test_table_word_frame : decodeTableWord 32 0x55AA0000 = some (.frame 0x00 0x00 [] 0x00) := by decide +kernel
theorem test_table_word_frame_runs :
    decOut (step (State.reset.withFetchWord 32 0x55AA0000)) = some (.seekPreamble1, [.frame 0x00 []]) := by
  decide +kernel
theorem test_table_word_s2_p2_runs :
    decOut (step (State.reset.withFetchWord 8 0xAA)) = some (.readHeader [], []) := by decide

/-! ## The checksum engine (V-C1 to V-C3) -/

theorem test_crc_clear : (next (execCrcClear (State.reset.setCrcAcc 0x5E))).map State.crcAcc = some 0x00 := by decide
/-- V-C1: the high bit is set before the shift. -/
theorem test_crc_bit_high : (next (execCrcBit (State.reset.setCrcAcc 0x8E))).map State.crcAcc = some 0x1B := by decide
/-- V-C1: the high bit is clear before the shift. -/
theorem test_crc_bit_low : (next (execCrcBit (State.reset.setCrcAcc 0x47))).map State.crcAcc = some 0x8E := by decide
/-- V-C2. -/
theorem test_crc_byte : (next (execCrcByte 0x02 (State.reset.setCrcAcc 0x07))).map State.crcAcc = some 0x1B := by decide
/-- V-C2. -/
theorem test_crc_byte_80 : (next (execCrcByte 0x80 State.reset)).map State.crcAcc = some 0x89 := by decide
/-- V-S1: the source's `C`. -/
theorem test_crc_seq :
    (next (execCrcSeq [0x01, 0x02, 0x68, 0x69] State.reset)).map State.crcResults = some [0x85] := by decide +kernel
/-- V-C3, the nine ASCII digits. -/
theorem test_crc_seq_digits :
    (next (execCrcSeq [0x31, 0x32, 0x33, 0x34, 0x35, 0x36, 0x37, 0x38, 0x39] State.reset)).map State.crcResults =
      some [0xF4] := by decide +kernel

/-! ## The encoder (V-E1, V-E10 by count) -/

theorem test_encode_hi :
    (next (execEncEncode 0x01 [0x68, 0x69] State.reset)).map State.responses = some [.ok hi] := by decide +kernel
theorem test_encode_65_bytes :
    (next (execEncEncode 0x42 (List.replicate 65 0x00) State.reset)).map State.responses =
      some [.err .payloadTooLarge] := by decide +kernel
/-- V-E11: 64 bytes A5 end in 9F. -/
theorem test_encode_64_bytes :
    encodeFrame 0x40 (List.replicate 64 0xA5) =
      .ok ([0x55, 0xAA, 0x40, 0x40] ++ List.replicate 64 0xA5 ++ [0x9F]) := by decide +kernel

/-! ## The decoder's rows (V-D1, V-D8, V-D23 and the examples of R113 to R132) -/

theorem test_feed_s1_p1 : decOut (execDecFeedS1P1 (st .seekPreamble1 [])) = some (.seekPreamble2, []) := by decide
theorem test_feed_s1_other_AA :
    decOut (execDecFeedS1Other 0xAA (st .seekPreamble1 [])) = some (.seekPreamble1, []) := by decide
theorem test_feed_s2_p2 : decOut (execDecFeedS2P2 (st .seekPreamble2 [])) = some (.readHeader [], []) := by decide
theorem test_feed_s2_p1 : decOut (execDecFeedS2P1 (st .seekPreamble2 [])) = some (.seekPreamble2, []) := by decide
theorem test_feed_s2_other :
    decOut (execDecFeedS2Other 0x54 (st .seekPreamble2 [])) = some (.seekPreamble1, []) := by decide
theorem test_feed_hdr_id :
    decOut (execDecFeedHdrId 0x55 (st (.readHeader []) [])) = some (.readHeader [0x55], []) := by decide
theorem test_feed_hdr_len :
    decOut (execDecFeedHdrLen 0xAA (st (.readHeader [0x55]) [])) = some (.readBody 0x55 0xAA [], []) := by decide
/-- V-D23: `body_size = 171`; R112: `length = 255` gives 256, not 0. -/
theorem test_body_size : (bodySize 0xAA).toNat = 171 ∧ (bodySize 0xFF).toNat = 256 := by decide
theorem test_feed_body_more :
    decOut (execDecFeedBodyMore 0x68 (st (.readBody 0x01 0x02 []) [])) =
      some (.readBody 0x01 0x02 [0x68], []) := by decide
theorem test_feed_body_emit :
    decOut (execDecFeedBodyEmit 0x85 (st (.readBody 0x01 0x02 [0x68, 0x69]) [])) =
      some (.seekPreamble1, [.frame 0x01 [0x68, 0x69]]) := by decide +kernel
/-- V-D2: the body of a frame without payload is its checksum alone. -/
theorem test_feed_body_emit_empty :
    decOut (execDecFeedBodyEmit 0xD7 (st (.readBody 0xFF 0x00 []) [])) =
      some (.seekPreamble1, [.frame 0xFF []]) := by decide +kernel
theorem test_feed_body_reject :
    decOut (execDecFeedBodyReject 0x84 (st (.readBody 0x01 0x02 [0x68, 0x69]) [])) =
      some (.seekPreamble1, [.checksumMismatch 0x01 0x02 0x85 0x84]) := by decide +kernel
theorem test_timeout_s1 : decOut (execDecTimeoutS1 (st .seekPreamble1 [])) = some (.seekPreamble1, []) := by decide
theorem test_timeout_s2 : decOut (execDecTimeoutS2 (st .seekPreamble2 [])) = some (.seekPreamble1, []) := by decide
theorem test_timeout_hdr :
    decOut (execDecTimeoutHdr (st (.readHeader [0x01]) [])) = some (.seekPreamble1, [.incompletePacket]) := by decide
theorem test_timeout_body :
    decOut (execDecTimeoutBody (st (.readBody 0x01 0x02 [0x68, 0x69]) [])) =
      some (.seekPreamble1, [.incompletePacket]) := by decide
theorem test_reset :
    decOut (execDecReset (st (.readBody 0x01 0x02 [0x68]) [])) = some (.seekPreamble1, []) := by decide
/-- V-D6, the vector that tells the two resynchronisation policies apart. -/
theorem test_feedn_doubled_preamble :
    decOut (execDecFeedn ([0x55] ++ hi) State.reset) =
      some (.seekPreamble1, [.frame 0x01 [0x68, 0x69]]) := by decide +kernel
/-- V-D11: the next frame's first byte is taken as the checksum. -/
theorem test_feedn_corrupt_length :
    decOut (execDecFeedn ([0x55, 0xAA, 0x01, 0x03, 0x68, 0x69, 0x85] ++ hi) State.reset) =
      some (.seekPreamble1, [.checksumMismatch 0x01 0x03 0x16 0x55]) := by decide +kernel
/-- V-D7: a preamble pair inside a payload opens nothing. -/
theorem test_frame_with_inner_preamble :
    decOut (execFrame 0x10 0x04 [0x55, 0xAA, 0x10, 0x00] 0x3B State.reset) =
      some (.seekPreamble1, [.frame 0x10 [0x55, 0xAA, 0x10, 0x00]]) := by decide +kernel
/-- V-D16: a received length of 65 is followed. -/
theorem test_frame_of_65_bytes :
    decOut (execFrame 0x42 0x41 ((List.range 65).map fun k => BitVec.ofNat 8 k) 0x83 State.reset) =
      some (.seekPreamble1, [.frame 0x42 ((List.range 65).map fun k => BitVec.ofNat 8 k)]) := by
  decide +kernel

/-! ## Steps -/

theorem test_step_takes_the_oldest_input :
    next (step (st .seekPreamble1 [.byte 0x55, .timeout])) = some (st .seekPreamble2 [.timeout]) := by decide
theorem test_step_idle : next (step (st .seekPreamble2 [])) = some (st .seekPreamble2 []) := by decide
theorem test_row_elsewhere_is_refused :
    execDecFeedS1P1 (st .seekPreamble2 []) = .refused .operationNotSelected := rfl

/-! ## Witnesses: concrete states and operands that meet the hypotheses of each statement together -/

/-- ChecksumIsLinearOverXor (two sequences of equal length). -/
theorem witness_linear : [0x01, 0x02, 0x68, 0x69].length = ([0x00, 0x00, 0x00, 0x01] : List Byte).length := by decide
/-- MatchingBodyLeavesNoResidue, at both ends of `length`. -/
theorem witness_residue :
    ([0x15] : List Byte).length = (0x00 : Byte).toNat + 1 ∧
    (List.replicate 256 (0x00 : Byte)).length = (0xFF : Byte).toNat + 1 := by decide +kernel
/-- OneByteChangeChangesTheChecksum. -/
theorem witness_one_byte : (0x68 : Byte) ≠ 0x69 := by decide
/-- EncodeAnswersTheFrameOrTheError, WrittenBytesDecode: the two sides of the bound. -/
theorem witness_payload_bound :
    (List.replicate 64 (0xA5 : Byte)).length ≤ 64 ∧ 64 < (List.replicate 65 (0xA5 : Byte)).length := by decide
/-- EncodedFrameLayout, DecoderAlwaysRecovers, ResynchronisationIsExact (the encoder succeeds). -/
theorem witness_encode_ok : encodeFrame 0x01 [0x68, 0x69] = .ok hi := by decide +kernel
/-- PayloadTooLargeIsTheEncodersAlone: a request that is answered with the error. -/
theorem witness_error_response :
    next (exec (.encEncode 0x42 (List.replicate 65 0x00)) State.reset) =
      some (State.reset.respond (.err .payloadTooLarge)) := by decide +kernel
/-- SeekPreamble1Rows: 0x54 and 0x56 are the neighbours of the byte that is tested. -/
theorem witness_seek1 : (st .seekPreamble1 []).dec = .seekPreamble1 ∧ (0x54 : Byte) ≠ 0x55 ∧ (0x56 : Byte) ≠ 0x55 := by
  decide
/-- SeekPreamble2Rows, ReexaminationMattersOnOneByte. -/
theorem witness_seek2 :
    (st .seekPreamble2 []).dec = .seekPreamble2 ∧ (0xAB : Byte) ≠ 0xAA ∧ (0xAB : Byte) ≠ 0x55 ∧ (0x55 : Byte) ≠ 0xAA := by
  decide
/-- HeaderRows, both clauses. -/
theorem witness_header :
    (st (.readHeader []) []).dec = .readHeader [] ∧ (st (.readHeader [0x01]) []).dec = .readHeader [0x01] := by decide
/-- BodyMoreAppends, at the last byte that does not complete the body. -/
theorem witness_body_more :
    (st (.readBody 0x01 0x02 [0x68]) []).dec = .readBody 0x01 0x02 [0x68] ∧
    ([0x68] : List Byte).length < (0x02 : Byte).toNat := by decide
/-- MatchingBodyEmitsTheFrame, at `length = 2` and at `length = 0`. -/
theorem witness_body_emit :
    (st (.readBody 0x01 0x02 [0x68, 0x69]) []).dec = .readBody 0x01 0x02 [0x68, 0x69] ∧
    ([0x68, 0x69] : List Byte).length = (0x02 : Byte).toNat ∧
    checksum ([0x01, 0x02] ++ [0x68, 0x69]) = 0x85 ∧
    (st (.readBody 0xFF 0x00 []) []).dec = .readBody 0xFF 0x00 [] ∧
    ([] : List Byte).length = (0x00 : Byte).toNat ∧ checksum ([0xFF, 0x00] ++ []) = 0xD7 := by decide +kernel
/-- DifferingBodyRaisesChecksumMismatch, OrderOfByteAndTimeoutDecides. -/
theorem witness_body_reject :
    (st (.readBody 0x01 0x02 [0x68, 0x69]) []).dec = .readBody 0x01 0x02 [0x68, 0x69] ∧
    ([0x68, 0x69] : List Byte).length = (0x02 : Byte).toNat ∧
    checksum ([0x01, 0x02] ++ [0x68, 0x69]) ≠ 0x84 := by decide +kernel
/-- TimeoutWhileSeekingIsSilent, TimeoutInAFrameRaisesIncompletePacket: each clause. -/
theorem witness_timeouts :
    (st .seekPreamble1 []).dec = .seekPreamble1 ∧ (st .seekPreamble2 []).dec = .seekPreamble2 ∧
    (st (.readHeader [0x01]) []).dec = .readHeader [0x01] ∧
    (st (.readBody 0x01 0x02 []) []).dec = .readBody 0x01 0x02 [] := by decide
/-- FrameOnTheWireIsEmittedOrReported, from each seek mode, at `length = 0` and at `length = 255`. -/
theorem witness_frame :
    (st .seekPreamble1 []).dec.Seeking ∧ (st .seekPreamble2 []).dec.Seeking ∧
    ([] : List Byte).length = (0x00 : Byte).toNat ∧
    (List.replicate 255 (0x00 : Byte)).length = (0xFF : Byte).toNat := by decide +kernel
/-- OperationsRunExactlyWhereSelected, DecodeOfEncodeIsTheOperation: a row where it applies, and one where it does not. -/
theorem witness_applies :
    (Instr.decFeedBodyEmit 0x85).WellFormed ∧
    (Instr.decFeedBodyEmit 0x85).applies (.readBody 0x01 0x02 [0x68, 0x69]) = true ∧
    (Instr.decFeedBodyEmit 0x84).applies (.readBody 0x01 0x02 [0x68, 0x69]) = false := by decide +kernel
/-- StepRunsTheSelectedOperation (a decoded input, and the idle clause). -/
theorem witness_decoded :
    (st .seekPreamble1 [.wire hi, .timeout]).inputs = .wire hi :: [.timeout] ∧
    decode (st .seekPreamble1 [.wire hi, .timeout]).dec (.wire hi) = .frame 0x01 0x02 [0x68, 0x69] 0x85 ∧
    (st .seekPreamble2 []).inputs = [] := by decide
/-- FrameIsTheFeedCallOfItsBytes (second clause): wire bytes that are no frame. -/
theorem witness_wire :
    (st .seekPreamble1 [.wire [0x55]]).inputs = .wire [0x55] :: [] ∧
    decodeWire [0x55] = .error .preamble2Missing := by decide
/-- RowsAgreeWithTheStepFunctions. -/
theorem witness_rows :
    (st .seekPreamble2 [.byte 0x55]).inputs = .byte 0x55 :: [] ∧
    (st (.readHeader []) [.timeout]).inputs = .timeout :: [] := by decide
/-- TableWordRunsNext, for a byte word and for a frame word. -/
theorem witness_table_word :
    decodeTableWord 8 0xAA = some .decFeedS2P2 ∧
    decodeTableWord 32 0x55AAFF00 = some (.frame 0xFF 0x00 [] 0x00) := by decide +kernel
/-- EveryStepKeepsTheInvariant, StreamsOnlyGrow: a state that is not reset's, and its step. -/
theorem witness_invariant :
    (st (.readBody 0x01 0x02 [0x68, 0x69]) [.byte 0x85]).Inv ∧
    next (step (st (.readBody 0x01 0x02 [0x68, 0x69]) [.byte 0x85])) =
      some ((st .seekPreamble1 []).emit [.frame 0x01 [0x68, 0x69]]) :=
  ⟨⟨Nat.le_refl 2, fun _ h => (nomatch h), fun _ h => (nomatch h)⟩, by decide +kernel⟩
/-- HeldBytesFollowTheOpeningPreamble, the step: a state with a remembered 0x55, and with an open header. -/
theorem witness_held_step :
    ((st .seekPreamble2 [.byte 0xAA]).Inv ∧ (st .seekPreamble2 [.byte 0xAA]).dec.HeldOf [0x00, 0x55] ∧
      step (st .seekPreamble2 [.byte 0xAA]) = .next (st (.readHeader []) [])) ∧
    ((st (.readHeader [0x01]) [.timeout]).Inv ∧ (st (.readHeader [0x01]) [.timeout]).dec.HeldOf [0x55, 0xAA, 0x01] ∧
      step (st (.readHeader [0x01]) [.timeout]) = .next ((st .seekPreamble1 []).emit [.incompletePacket])) :=
  ⟨⟨⟨trivial, fun _ h => (nomatch h), fun _ h => (nomatch h)⟩, ⟨[0x00], rfl⟩, rfl⟩,
    ⟨⟨Nat.le_refl 1, fun _ h => (nomatch h), fun _ h => (nomatch h)⟩, ⟨[], rfl⟩, rfl⟩⟩
/-- HeldBytesFollowTheOpeningPreamble, the two clauses about a fresh decoder. -/
theorem witness_held :
    (decFeedn .seekPreamble1 [0x00, 0x55, 0xAA, 0x01]).1 = .readHeader [0x01] ∧
    (decFeedn .seekPreamble1 [0x55, 0x55, 0xAA, 0x01, 0x02, 0x68]).1 = .readBody 0x01 0x02 [0x68] := by decide
/-- AtMostOneEventPerStep, ErrorEntryChangesNothingElse (first clauses): a decoder item whose step gives one event. -/
theorem witness_event_step :
    (st (.readBody 0x01 0x00 []) [.byte 0x79]).inputs = .byte 0x79 :: [] ∧ DecoderItem (.byte 0x79) ∧
    next (step (st (.readBody 0x01 0x00 []) [.byte 0x79])) =
      some ((st .seekPreamble1 []).emit [.checksumMismatch 0x01 0x00 0x15 0x79]) :=
  ⟨rfl, .inr (.inr ⟨0x79, rfl⟩), by decide +kernel⟩
/-- AtMostOneEventPerStep (second clause): four bytes and a timeout, the most the hypothesis admits. -/
theorem witness_four_bytes :
    (([.byte 0x55, .byte 0xAA, .byte 0x01, .timeout, .byte 0x00] : List Input).filter
      (fun x => x ≠ .timeout ∧ x ≠ .reset)).length < 5 ∧
    next (run 5 (st .seekPreamble1 [.byte 0x55, .byte 0xAA, .byte 0x01, .timeout, .byte 0x00])) =
      some ((st .seekPreamble1 []).emit [.incompletePacket]) := by decide
/-- ErrorEntryChangesNothingElse (second clause). -/
theorem witness_encode_step :
    (st .seekPreamble1 [.encode 0x42 (List.replicate 65 0x00)]).inputs = .encode 0x42 (List.replicate 65 0x00) :: [] ∧
    64 < (List.replicate 65 (0x00 : Byte)).length := by decide
/-- AgentsDoNotInteract: one operation of each agent from two states that differ in everything of the other agents. -/
theorem witness_agents :
    (next (exec (.crcByte 0x01) (st .seekPreamble1 []))).isSome ∧
    (next (exec (.crcByte 0x01) (st (.readHeader [0x01]) [.timeout]))).isSome ∧
    (next (exec .decFeedS1P1 (st .seekPreamble1 []))).isSome ∧
    (next (exec .decFeedS1P1 ((st .seekPreamble1 []).setCrcAcc 0x33))).isSome ∧
    (next (exec (.encEncode 0x01 []) (st .seekPreamble1 []))).isSome ∧
    (next (exec (.encEncode 0x01 []) (st (.readHeader []) []))).isSome := by decide
/-- OpenBodyAbsorbsSilently, at the longest body that is still open. -/
theorem witness_open_body : (List.replicate 255 (0x00 : Byte)).length ≤ (0xFF : Byte).toNat := by decide +kernel
/-- DecoderAlwaysRecovers (third clause), from the state that needs all 258 bytes. -/
theorem witness_recover :
    (DecState.readHeader []).mode = .readHeader ∧ (List.replicate 258 (0xFF : Byte)).length = 258 := by decide +kernel
/-- RoundTrip, from each seek mode, at the longest payload. -/
theorem witness_round_trip :
    (List.replicate 64 (0x55 : Byte)).length ≤ 64 ∧ (st .seekPreamble1 []).dec.Seeking ∧
    (st .seekPreamble2 []).dec.Seeking := by decide
/-- ResynchronisationIsExact: noise without the pair that ends in 0x55, and noise with it. -/
theorem witness_noise :
    ¬ [0x55, 0xAA] <:+: ([0x00, 0xFF, 0xAA, 0x55] : List Byte) ∧
    [0x55, 0xAA] <:+: ([0x55, 0xAA, 0x01, 0x40] : List Byte) := by decide
/-- SingleByteCorruption: each clause at the ends of its range, on the frame `hi` (length 2) and a pattern for each. -/
theorem witness_corruption :
    encodeFrame 0x01 [0x68, 0x69] = .ok hi ∧ (0x01 : Byte) ≠ 0 ∧ (0x02 : Byte) ≠ 0 ∧
    (4 ≤ 4 ∧ 4 ≤ 4 + [0x68, 0x69].length ∧ 4 ≤ 6 ∧ 6 ≤ 4 + [0x68, 0x69].length) ∧
    [0x68, 0x69].length < (hi.getD 3 0 ^^^ 0x01).toNat ∧
    (hi.getD 3 0 ^^^ 0x02).toNat < [0x68, 0x69].length ∧
    ¬ [0x55, 0xAA] <:+: hi.set 0 (hi.getD 0 0 ^^^ 0x01) ∧
    ¬ [0x55, 0xAA] <:+: hi.set 1 (hi.getD 1 0 ^^^ 0x01) := by decide +kernel
/-- ByteSourceRound: a round in which the two policies differ. -/
theorem witness_policies :
    elapsed .onEmptyRead 4 [0x55] = false ∧ elapsed .onShortRead 4 [0x55] = true := by decide

end Sys2Proof.Tests
end

/-! SUPPORT. Proofs of the family 10_state: what the block holds between two steps, and what every step keeps of it
(10_state.md R34, R36). -/

/-! ## Facts about the state's updates and the decoder's step functions -/

namespace Sys2Proof.Machine

namespace State

/-- Putting back the decoder state that is there changes nothing. -/
theorem setDec_of_eq {s : State} {d : DecState} (h : s.dec = d) : s.setDec d = s := by
  subst h; rfl

/-- Emitting no event changes nothing. -/
@[simp] theorem emit_nil (s : State) : s.emit [] = s := by
  simp [State.emit]

/-- A decoder step without an event only moves the decoder. -/
theorem deliver_silent (s : State) (d : DecState) : s.deliver (d, []) = s.setDec d := by
  simp [State.deliver]

/-- A decoder step with one event that leaves the decoder fresh is `raise` of that event (R157). -/
theorem deliver_raise (s : State) (e : Event) : s.deliver (.seekPreamble1, [e]) = s.raise e := rfl

end State

/-- Feeding `a ++ b` is feeding `b` from the state that `a` leads to. -/
theorem decFeedn_append (d : DecState) (a b : List Byte) :
    decFeedn d (a ++ b) =
      ((decFeedn (decFeedn d a).1 b).1, (decFeedn d a).2 ++ (decFeedn (decFeedn d a).1 b).2) := by
  induction a generalizing d with
  | nil => rfl
  | cons x xs ih => simp [decFeedn_cons, ih]

/-- Feeding one byte is one byte step. -/
@[simp] theorem decFeedn_singleton (d : DecState) (b : Byte) : decFeedn d [b] = decFeed d b := by
  simp [decFeedn_cons]

@[simp] theorem decFeed_seekPreamble1 (b : Byte) : decFeed .seekPreamble1 b = decSeek1 b := rfl

/-- Under the policy of R115 a byte that is not `PREAMBLE2` is handled as in `SeekPreamble1`. -/
theorem decFeed_seekPreamble2 (b : Byte) :
    decFeed .seekPreamble2 b = if b = Config.preamble2 then (.readHeader [], []) else decSeek1 b := rfl

/-- A byte in `SeekPreamble1` leaves the decoder seeking. -/
theorem decSeek1_seeking (b : Byte) : (decSeek1 b).1.Seeking := by
  unfold decSeek1; split
  · exact .inr rfl
  · exact .inl rfl

/-- A byte in `SeekPreamble1` has no event. -/
@[simp] theorem decSeek1_snd (b : Byte) : (decSeek1 b).2 = [] := by
  unfold decSeek1; split <;> rfl

/-- A byte step outside a body has no event (R113 to R120). -/
theorem decFeed_snd_of_not_readBody {d : DecState} (h : d.mode ≠ .readBody) (b : Byte) : (decFeed d b).2 = [] := by
  match d, h with
  | .seekPreamble1, _ => exact decSeek1_snd b
  | .seekPreamble2, _ =>
    rw [decFeed_seekPreamble2]; split
    · rfl
    · exact decSeek1_snd b
  | .readHeader [], _ => rfl
  | .readHeader (_ :: _), _ => rfl
  | .readBody _ _ _, h => exact absurd rfl h

/-- Every timeout leaves the decoder fresh (R126). -/
@[simp] theorem decTimeout_fst (d : DecState) : (decTimeout d).1 = .seekPreamble1 := by
  cases d <;> rfl

/-- A timeout has no event but `IncompletePacket` (R126). -/
theorem eq_incompletePacket_of_mem_decTimeout {d : DecState} {e : Event} (h : e ∈ (decTimeout d).2) :
    e = .incompletePacket := by
  cases d with
  | seekPreamble1 => exact absurd h List.not_mem_nil
  | seekPreamble2 => exact absurd h List.not_mem_nil
  | readHeader hdr => exact List.mem_singleton.mp h
  | readBody messageId length body => exact List.mem_singleton.mp h

/-! ## What the wire format's parser reads -/

/-- The bytes after an accepted header: the payload of `length` bytes, the checksum byte, the bytes after the frame. -/
theorem splitBody_eq_ok {messageId length : Byte} {rest after : List Byte} {i : Instr}
    (h : splitBody messageId length rest = .ok (i, after)) :
    ∃ payload check, payload.length = length.toNat ∧ rest = payload ++ check :: after ∧
      i = .frame messageId length payload check := by
  unfold splitBody at h
  split at h
  · cases h
  next check after' hdrop =>
    cases h
    have hlen : length.toNat < rest.length := by
      have := congrArg List.length hdrop
      simp at this; omega
    exact ⟨rest.take length.toNat, check, by simp; omega, by rw [← hdrop, List.take_append_drop], rfl⟩

/-- Bytes that begin with a frame are the bytes of R60 and the bytes after the frame. -/
theorem decodeFrame_eq_ok {bytes after : List Byte} {i : Instr} (h : decodeFrame bytes = .ok (i, after)) :
    ∃ messageId length payload check, payload.length = length.toNat ∧
      bytes = frameBytes messageId length payload check ++ after ∧
      i = .frame messageId length payload check := by
  match bytes with
  | [] | [_] | [_, _] | [_, _, _] => grind [decodeFrame]
  | p1 :: p2 :: messageId :: length :: rest =>
    by_cases h12 : p1 = Config.preamble1 ∧ p2 = Config.preamble2
    · obtain ⟨rfl, rfl⟩ := h12
      obtain ⟨payload, check, hlen, rfl, hi⟩ := splitBody_eq_ok h
      exact ⟨messageId, length, payload, check, hlen, by simp [frameBytes], hi⟩
    · grind [decodeFrame]

/-- Bytes that are one frame begin with it and end there. -/
theorem decodeFrame_of_decodeWire {bytes : List Byte} {i : Instr} (h : decodeWire bytes = .ok i) :
    decodeFrame bytes = .ok (i, []) := by
  unfold decodeWire at h
  split at h
  · cases h
  next hf => cases h; exact hf
  · cases h

/-! ## What one step does -/

/-- What the block does with an input it has taken: R110's step, by the kind of input. -/
def State.effect (s : State) : Input → State
  | .byte b => s.deliver (decFeed s.dec b)
  | .timeout => s.deliver (decTimeout s.dec)
  | .reset => s.setDec .seekPreamble1
  | .chunk bs => s.deliver (decFeedn s.dec bs)
  | .wire bs => s.deliver (decFeedn s.dec bs)
  | .encode messageId payload => s.respond (encodeFrame messageId payload)
  | .crcClear => s.setCrcAcc Config.crcInit
  | .crcBit => s.setCrcAcc (crc8Bit s.crcAcc)
  | .crcByte b => s.setCrcAcc (crc8Byte s.crcAcc b)
  | .crcSeq bs => (s.setCrcAcc (checksum bs)).report (checksum bs)

/-- The row that R66 selects for a byte is the byte step of R111. -/
theorem exec_selectFeed (s : State) (b : Byte) :
    exec (selectFeed s.dec b) s = .next (s.deliver (decFeed s.dec b)) := by
  match hd : s.dec with
  | .seekPreamble1 =>
    by_cases h1 : b = Config.preamble1
    · simp [selectFeed, decFeed, decSeek1, exec, execDecFeedS1P1, hd, h1, State.deliver_silent]
    · simp only [selectFeed, decFeed, decSeek1, exec, execDecFeedS1Other, hd, if_neg h1, State.deliver_silent,
        State.setDec_of_eq hd]
  | .seekPreamble2 =>
    by_cases h2 : b = Config.preamble2
    · simp [selectFeed, decFeed, exec, execDecFeedS2P2, hd, h2, State.deliver_silent]
    by_cases h1 : b = Config.preamble1
    · simp [selectFeed, decFeed, exec, execDecFeedS2P1, hd, h1]
    · simp only [selectFeed, decFeed, Config.resyncPolicy, resyncWith, decSeek1, exec, execDecFeedS2Other, hd,
        if_neg h1, if_neg h2, if_neg (not_or_intro h2 h1), State.deliver_silent]
  | .readHeader [] => simp [selectFeed, decFeed, exec, execDecFeedHdrId, hd, State.deliver_silent]
  | .readHeader (messageId :: _) => simp [selectFeed, decFeed, exec, execDecFeedHdrLen, hd, State.deliver_silent]
  | .readBody messageId length body =>
    by_cases hc : bodyCompletes length body = true
    · by_cases hm : checksumMatches messageId length (body ++ [b]) = true
      · simp [selectFeed, decFeed, exec, execDecFeedBodyEmit, hd, hc, hm, State.deliver]
      · simp [selectFeed, decFeed, exec, execDecFeedBodyReject, hd, hc, hm, State.deliver_raise]
    · simp [selectFeed, decFeed, exec, execDecFeedBodyMore, hd, hc, State.deliver_silent]

/-- The row that R67 selects for a timeout is the timeout step of R126. -/
theorem exec_selectTimeout (s : State) :
    exec (selectTimeout s.dec) s = .next (s.deliver (decTimeout s.dec)) := by
  cases hd : s.dec with
  | seekPreamble1 =>
    simp [selectTimeout, decTimeout, exec, execDecTimeoutS1, hd, State.deliver_silent, State.setDec_of_eq hd]
  | seekPreamble2 => simp [selectTimeout, decTimeout, exec, execDecTimeoutS2, hd, State.deliver_silent]
  | readHeader hdr => simp [selectTimeout, decTimeout, exec, execDecTimeoutHdr, hd, State.deliver_raise]
  | readBody messageId length body =>
    simp [selectTimeout, decTimeout, exec, execDecTimeoutBody, hd, State.deliver_raise]

/-- Bytes on the wire are fed to the decoder, whether or not they are one frame (R70, R131). -/
theorem exec_selectWire (bytes : List Byte) (s : State) :
    exec (selectWire bytes) s = .next (s.deliver (decFeedn s.dec bytes)) := by
  obtain ⟨i, hw, hi⟩ | ⟨why, hw, hi⟩ := selectWire_cases bytes
  · obtain ⟨messageId, length, payload, check, -, hbytes, rfl⟩ :=
      decodeFrame_eq_ok (decodeFrame_of_decodeWire hw)
    rw [hi, hbytes, List.append_nil]; rfl
  · rw [hi]; rfl

/-- ENC.ENCODE answers the encoder's function (R100). -/
theorem exec_encEncode (messageId : Byte) (payload : List Byte) (s : State) :
    exec (.encEncode messageId payload) s = .next (s.respond (encodeFrame messageId payload)) := by
  simp only [exec, execEncEncode]
  cases encodeFrame messageId payload <;> rfl

/-- Every operation an input selects has the input's effect. -/
theorem exec_decode (s : State) (x : Input) : exec (decode s.dec x) s = .next (s.effect x) := by
  cases x with
  | byte b => exact exec_selectFeed s b
  | timeout => exact exec_selectTimeout s
  | wire bytes => exact exec_selectWire bytes s
  | encode messageId payload => exact exec_encEncode messageId payload s
  | reset => rfl
  | chunk bs => rfl
  | crcClear => rfl
  | crcBit => rfl
  | crcByte b => rfl
  | crcSeq bs => rfl

/-- A step takes the oldest input and has its effect. -/
theorem step_eq_effect {s : State} {x : Input} {rest : List Input} (hx : s.inputs = x :: rest) :
    step s = .next ((s.setInputs rest).effect x) := by
  rw [step_of_inputs hx]; exact exec_decode (s.setInputs rest) x

/-- The two kinds of step: idle, or the effect of the oldest input. -/
theorem step_next_cases {s t : State} (h : step s = .next t) :
    (s.inputs = [] ∧ t = s) ∨ ∃ x rest, s.inputs = x :: rest ∧ t = (s.setInputs rest).effect x := by
  obtain hidle | ⟨x, rest, hx, -⟩ := step_cases h
  · exact .inl hidle
  · rw [step_eq_effect hx] at h
    exact .inr ⟨x, rest, hx, by cases h; rfl⟩

/-! ## The invariant (R36, R69, R104, R123) -/

/-- A seeking decoder holds no byte, so its shape is right. -/
theorem DecState.Seeking.inv {d : DecState} (h : d.Seeking) : d.Inv := by
  obtain rfl | rfl := h <;> trivial

/-- A byte step keeps the decoder's shape. -/
theorem decFeed_inv {d : DecState} (h : d.Inv) (b : Byte) : (decFeed d b).1.Inv := by
  match d, h with
  | .seekPreamble1, _ => exact (decSeek1_seeking b).inv
  | .seekPreamble2, _ =>
    rw [decFeed_seekPreamble2]; split
    · exact Nat.zero_le 1
    · exact (decSeek1_seeking b).inv
  | .readHeader [], _ => exact Nat.le_refl 1
  | .readHeader (messageId :: _), _ => exact Nat.zero_le b.toNat
  | .readBody messageId length body, h =>
    obtain hlt | heq := Nat.lt_or_eq_of_le h
    · rw [decFeed_more hlt]; simpa using hlt
    · rw [decFeed_last heq]; trivial

/-- The event of a completed body is bounded: the payload has `length` bytes, and a mismatch is one. -/
theorem lastEvent_bounded {messageId length : Byte} {body : List Byte} (h : body.length = length.toNat) (b : Byte) :
    (if b = checksum (coverage messageId length body) then Event.frame messageId body
     else .checksumMismatch messageId length (checksum (coverage messageId length body)) b).Bounded := by
  split
  · have := length.isLt
    exact show body.length ≤ 255 by omega
  next hne => exact Ne.symm hne

/-- What a byte step emits is bounded. -/
theorem decFeed_bounded {d : DecState} (h : d.Inv) (b : Byte) : ∀ e ∈ (decFeed d b).2, e.Bounded := by
  by_cases hmode : d.mode = .readBody
  case neg => simp [decFeed_snd_of_not_readBody hmode]
  match d, h with
  | .readBody messageId length body, h =>
    obtain hlt | heq := Nat.lt_or_eq_of_le h
    · simp [decFeed_more hlt]
    · rw [decFeed_last heq]
      exact List.forall_mem_singleton.mpr (lastEvent_bounded heq b)

/-- Feeding any bytes keeps the decoder's shape. -/
theorem decFeedn_inv {d : DecState} (h : d.Inv) (bs : List Byte) : (decFeedn d bs).1.Inv := by
  induction bs generalizing d with
  | nil => exact h
  | cons b t ih => exact ih (decFeed_inv h b)

/-- What feeding any bytes emits is bounded. -/
theorem decFeedn_bounded {d : DecState} (h : d.Inv) (bs : List Byte) : ∀ e ∈ (decFeedn d bs).2, e.Bounded := by
  induction bs generalizing d with
  | nil => exact fun e he => absurd he List.not_mem_nil
  | cons b t ih =>
    intro e he
    obtain he | he := List.mem_append.mp he
    · exact decFeed_bounded h b e he
    · exact ih (decFeed_inv h b) e he

/-- What a timeout emits is bounded. -/
theorem decTimeout_bounded (d : DecState) : ∀ e ∈ (decTimeout d).2, e.Bounded := by
  intro e he
  rw [eq_incompletePacket_of_mem_decTimeout he]; trivial

/-- A byte equal to the accumulator clears it (R82). -/
@[simp] theorem crc8Byte_self (a : Byte) : crc8Byte a a = 0 := by
  rw [crc8Byte_eq_bits, BitVec.xor_self]; rfl

/-- Appending the checksum leaves no residue (R89). -/
theorem checksum_append_checksum (m : List Byte) : checksum (m ++ [checksum m]) = 0 := by
  simp only [checksum, absorb_append, absorb_cons, absorb_nil, crc8Byte_self]

/-- What the encoder answers is sound (R104 (a), (b), (d)). -/
theorem encodeFrame_sound (messageId : Byte) (payload : List Byte) : (encodeFrame messageId payload).Sound := by
  by_cases h : payload.length ≤ 64
  · rw [encodeFrame_of_le h]
    refine ⟨?_, ?_, rfl, checksum_append_checksum _⟩ <;> rw [frameBytes_length, Config.overheadBytes] <;> omega
  · rw [encodeFrame, if_pos (Nat.lt_of_not_le h)]; trivial

namespace State.Inv

variable {s : State} (h : s.Inv)
include h

theorem setInputs (q : List Input) : (s.setInputs q).Inv := ⟨h.dec, h.events, h.responses⟩

theorem setCrcAcc (a : Byte) : (s.setCrcAcc a).Inv := ⟨h.dec, h.events, h.responses⟩

theorem report (c : Byte) : (s.report c).Inv := ⟨h.dec, h.events, h.responses⟩

theorem setDec {d : DecState} (hd : d.Inv) : (s.setDec d).Inv := ⟨hd, h.events, h.responses⟩

theorem emit {es : List Event} (hes : ∀ e ∈ es, e.Bounded) : (s.emit es).Inv :=
  ⟨h.dec, List.forall_mem_append.mpr ⟨h.events, hes⟩, h.responses⟩

theorem deliver {r : DecState × List Event} (hd : r.1.Inv) (hes : ∀ e ∈ r.2, e.Bounded) : (s.deliver r).Inv :=
  (h.emit hes).setDec hd

theorem respond {r : EncodeResponse} (hr : r.Sound) : (s.respond r).Inv :=
  ⟨h.dec, h.events, List.forall_mem_append.mpr ⟨h.responses, List.forall_mem_singleton.mpr hr⟩⟩

/-- Whatever input is taken, its effect keeps the invariant. -/
theorem effect (x : Input) : (s.effect x).Inv := by
  cases x with
  | byte b => exact h.deliver (decFeed_inv h.dec b) (decFeed_bounded h.dec b)
  | timeout => exact h.deliver (by rw [decTimeout_fst]; trivial) (decTimeout_bounded s.dec)
  | reset => exact h.setDec trivial
  | chunk bs => exact h.deliver (decFeedn_inv h.dec bs) (decFeedn_bounded h.dec bs)
  | wire bs => exact h.deliver (decFeedn_inv h.dec bs) (decFeedn_bounded h.dec bs)
  | encode messageId payload => exact h.respond (encodeFrame_sound messageId payload)
  | crcClear => exact h.setCrcAcc _
  | crcBit => exact h.setCrcAcc _
  | crcByte b => exact h.setCrcAcc _
  | crcSeq bs => exact (h.setCrcAcc _).report _

end State.Inv

/-! ## The history of the held bytes (R36) -/

/-- `DecState.HeldOf` with a condition `P` on the bytes that came before the remembered 0x55 or the preamble pair. -/
def DecState.HeldAfter (P : List Byte → Prop) (d : DecState) (history : List Byte) : Prop :=
  match d with
  | .seekPreamble1 => True
  | .seekPreamble2 => ∃ pre, history = pre ++ [0x55] ∧ P pre
  | .readHeader hdr => ∃ pre, history = pre ++ [0x55, 0xAA] ++ hdr ∧ P pre
  | .readBody messageId length body => ∃ pre, history = pre ++ [0x55, 0xAA, messageId, length] ++ body ∧ P pre

/-- Without a condition it is what R36 says of the held bytes. -/
theorem DecState.heldAfter_true_iff (d : DecState) (history : List Byte) :
    d.HeldAfter (fun _ => True) history ↔ d.HeldOf history := by
  cases d <;> simp [DecState.HeldAfter, DecState.HeldOf]

/-- A byte in `SeekPreamble1` is remembered only if it is 0x55. -/
theorem decSeek1_heldAfter {P : List Byte → Prop} {history : List Byte} (hP : P history) (b : Byte) :
    (decSeek1 b).1.HeldAfter P (history ++ [b]) := by
  by_cases h1 : b = Config.preamble1
  · rw [decSeek1, if_pos h1]; exact ⟨history, by rw [h1], hP⟩
  · rw [decSeek1, if_neg h1]; trivial

/-- A byte step keeps the history, the byte appended; a 0x55 that is remembered afresh was met while seeking. -/
theorem decFeed_heldAfter {P : List Byte → Prop} {d : DecState} {history : List Byte} (hinv : d.Inv)
    (h : d.HeldAfter P history) (hP : d.Seeking → P history) (b : Byte) :
    (decFeed d b).1.HeldAfter P (history ++ [b]) := by
  match d, hinv, h with
  | .seekPreamble1, _, _ => exact decSeek1_heldAfter (hP (.inl rfl)) b
  | .seekPreamble2, _, ⟨pre, hpre, hpreP⟩ =>
    rw [decFeed_seekPreamble2]; split
    next h2 => exact ⟨pre, by simp [hpre, h2], hpreP⟩
    · exact decSeek1_heldAfter (hP (.inr rfl)) b
  | .readHeader [], _, ⟨pre, hpre, hpreP⟩ => exact ⟨pre, by simp [hpre], hpreP⟩
  | .readHeader [messageId], _, ⟨pre, hpre, hpreP⟩ => exact ⟨pre, by simp [hpre], hpreP⟩
  | .readHeader (_ :: _ :: _), hinv, _ => exact absurd hinv (by simp)
  | .readBody messageId length body, hinv, ⟨pre, hpre, hpreP⟩ =>
    obtain hlt | heq := Nat.lt_or_eq_of_le hinv
    · rw [decFeed_more hlt]; exact ⟨pre, by simp [hpre], hpreP⟩
    · rw [decFeed_last heq]; trivial

/-- Feeding any bytes keeps the history, the bytes appended. -/
theorem decFeedn_heldAfter {P : List Byte → Prop} {d : DecState} {history : List Byte} (hinv : d.Inv)
    (h : d.HeldAfter P history) (hP : ∀ front, (decFeedn d front).1.Seeking → P (history ++ front))
    (bs : List Byte) : (decFeedn d bs).1.HeldAfter P (history ++ bs) := by
  induction bs using List.reverseRecOn with
  | nil => simpa using h
  | append_singleton bs b ih =>
    rw [decFeedn_append, decFeedn_singleton, ← List.append_assoc]
    exact decFeed_heldAfter (decFeedn_inv hinv bs) ih (hP bs) b

/-- Feeding any bytes keeps what R36 says of the held bytes. -/
theorem decFeedn_heldOf {d : DecState} {history : List Byte} (hinv : d.Inv) (h : d.HeldOf history)
    (bs : List Byte) : (decFeedn d bs).1.HeldOf (history ++ bs) := by
  rw [← DecState.heldAfter_true_iff] at h ⊢
  exact decFeedn_heldAfter hinv h (fun _ _ => trivial) bs

/-- The effect of an input keeps what R36 says of the held bytes, the delivered bytes appended. -/
theorem State.effect_heldOf {s : State} {history : List Byte} (hinv : s.dec.Inv) (h : s.dec.HeldOf history)
    (x : Input) : (s.effect x).dec.HeldOf (history ++ x.delivered) := by
  cases x with
  | byte b =>
    have := decFeedn_heldOf hinv h [b]
    rwa [decFeedn_singleton] at this
  | chunk bs => exact decFeedn_heldOf hinv h bs
  | wire bs => exact decFeedn_heldOf hinv h bs
  | timeout => simp only [State.effect, State.deliver_dec, decTimeout_fst]; trivial
  | reset => trivial
  | encode messageId payload => simpa [State.effect, Input.delivered] using h
  | crcClear => simpa [State.effect, Input.delivered] using h
  | crcBit => simpa [State.effect, Input.delivered] using h
  | crcByte b => simpa [State.effect, Input.delivered] using h
  | crcSeq bs => simpa [State.effect, Input.delivered] using h

/-- What a fresh decoder holds of the bytes it was fed, the preamble pair met while seeking. -/
theorem decFeedn_fresh_heldAfter (bs : List Byte) :
    (decFeedn .seekPreamble1 bs).1.HeldAfter (fun pre => (decFeedn .seekPreamble1 pre).1.Seeking) bs :=
  decFeedn_heldAfter (d := .seekPreamble1) (history := []) trivial trivial (fun _ hfront => hfront) bs

end Sys2Proof.Machine

/-! ## The obligations -/

namespace Sys2Proof.Proofs

open Sys2Proof.Machine

/-- Settles O39: a step is idle or the effect of one input, and each effect keeps the invariant. -/
theorem everyStepKeepsTheInvariant : Obligations.EveryStepKeepsTheInvariant := by
  intro s t hinv hstep
  obtain ⟨-, rfl⟩ | ⟨x, rest, -, rfl⟩ := step_next_cases hstep
  · exact hinv
  · exact (hinv.setInputs rest).effect x

/-- Settles O40: the history of the held bytes is kept by every byte step, also with the condition that the preamble pair
was met while seeking, which gives the two clauses about a fresh decoder. -/
theorem heldBytesFollowTheOpeningPreamble : Obligations.HeldBytesFollowTheOpeningPreamble := by
  refine ⟨fun s t history hinv hheld hstep => ?_, fun s t rest hx hstep => ?_, fun bs hdr hd => ?_,
    fun bs body messageId length hd => ?_⟩
  · obtain ⟨hx, rfl⟩ | ⟨x, rest, hx, rfl⟩ := step_next_cases hstep
    · rwa [nextDelivered_of_nil hx, List.append_nil]
    · rw [nextDelivered_of_inputs hx]
      exact State.effect_heldOf (s := s.setInputs rest) hinv.dec hheld x
  · obtain hx | hx := hx <;> rw [step_eq_effect hx] at hstep <;> cases hstep
    · exact decTimeout_fst s.dec
    · rfl
  · have := decFeedn_fresh_heldAfter bs
    rwa [hd] at this
  · have := decFeedn_fresh_heldAfter bs
    rwa [hd] at this

/-- Settles O38: the decoder is fresh and both streams are empty. -/
theorem invariantHoldsAtReset : Obligations.InvariantHoldsAtReset :=
  ⟨trivial, fun _ he => absurd he List.not_mem_nil, fun _ hr => absurd hr List.not_mem_nil⟩

/-- Settles O41: each field of the reset state as R34 and the model's log give it. -/
theorem resetStateIsFresh : Obligations.ResetStateIsFresh :=
  ⟨rfl, rfl, rfl, rfl, rfl, rfl, rfl⟩

/-- Settles O55: by the modes, the event kinds and the one encode error. -/
theorem suggestedCodes : Obligations.SuggestedCodes := by
  refine ⟨fun m => ?_, rfl, fun _ _ => rfl, fun _ _ _ _ => rfl, rfl, fun _ => rfl, fun e => ?_⟩
  · cases m <;> rfl
  · cases e; rfl

end Sys2Proof.Proofs

/-! SUPPORT. Proofs of the family 20_memory: the inputs the block takes and the streams it answers on, and that its three
agents share nothing (20_memory.md R41, R42, R49). -/

/-! ## What each agent's operations can do -/

namespace Sys2Proof.Machine

/-- The three forms an input's effect can have, one per agent: each reads and changes its own agent's state, and answers on
its own stream (R49, R162). -/
theorem effect_cases_by_agent (x : Input) :
    (x.agent = .dec ∧ ∃ f : DecState → DecState × List Event, ∀ s : State, s.effect x = s.deliver (f s.dec)) ∨
    (x.agent = .enc ∧ ∃ r : EncodeResponse, ∀ s : State, s.effect x = s.respond r) ∨
    (x.agent = .crc ∧ ∃ (f : Byte → Byte) (cs : List Byte), ∀ s : State,
      s.effect x = { s with crcAcc := f s.crcAcc, crcResults := s.crcResults ++ cs }) := by
  cases x with
  | byte b => exact .inl ⟨rfl, fun d => decFeed d b, fun _ => rfl⟩
  | timeout => exact .inl ⟨rfl, decTimeout, fun _ => rfl⟩
  | reset => exact .inl ⟨rfl, fun _ => (.seekPreamble1, []), fun s => (s.deliver_silent _).symm⟩
  | chunk bs => exact .inl ⟨rfl, fun d => decFeedn d bs, fun _ => rfl⟩
  | wire bs => exact .inl ⟨rfl, fun d => decFeedn d bs, fun _ => rfl⟩
  | encode messageId payload => exact .inr (.inl ⟨rfl, encodeFrame messageId payload, fun _ => rfl⟩)
  | crcClear => exact .inr (.inr ⟨rfl, fun _ => Config.crcInit, [], by simp [State.effect, State.setCrcAcc]⟩)
  | crcBit => exact .inr (.inr ⟨rfl, crc8Bit, [], by simp [State.effect, State.setCrcAcc]⟩)
  | crcByte b => exact .inr (.inr ⟨rfl, fun a => crc8Byte a b, [], by simp [State.effect, State.setCrcAcc]⟩)
  | crcSeq bs => exact .inr (.inr ⟨rfl, fun _ => checksum bs, [checksum bs], fun _ => rfl⟩)

/-- Taking an input's effect leaves the queue alone, and each stream grows at its end (R41, R42). -/
theorem effect_streams_grow (s : State) (x : Input) :
    (s.effect x).inputs = s.inputs ∧ s.events <+: (s.effect x).events ∧
      s.responses <+: (s.effect x).responses ∧ s.crcResults <+: (s.effect x).crcResults := by
  obtain ⟨-, f, hf⟩ | ⟨-, r, hr⟩ | ⟨-, f, cs, hf⟩ := effect_cases_by_agent x
  · simp [hf]
  · simp [hr]
  · simp [hf]

/-- An operation is encoded as an input to the agent that owns it (R40, R67). -/
theorem encode_agent (i : Instr) : (encode i).agent = i.agent := by
  cases i <;> rfl

/-- An operation other than FRAME that runs is the one its own input selects: a row's guard is R66's or R67's test. -/
theorem decode_encode_of_exec_next {i : Instr} {s t : State} (h : exec i s = .next t)
    (hframe : ∀ messageId length payload check, i ≠ .frame messageId length payload check) :
    decode s.dec (encode i) = i := by
  cases i with
  | frame messageId length payload check => exact absurd rfl (hframe messageId length payload check)
  | crcClear | crcBit | crcByte | crcSeq | encEncode | decReset | decFeedn => rfl
  | decFeedS1P1 => grind [exec, execDecFeedS1P1, encode, decode, selectFeed]
  | decFeedS1Other b => grind [exec, execDecFeedS1Other, encode, decode, selectFeed]
  | decFeedS2P2 => grind [exec, execDecFeedS2P2, encode, decode, selectFeed]
  | decFeedS2P1 => grind [exec, execDecFeedS2P1, encode, decode, selectFeed]
  | decFeedS2Other b => grind [exec, execDecFeedS2Other, encode, decode, selectFeed]
  | decFeedHdrId b => grind [exec, execDecFeedHdrId, encode, decode, selectFeed]
  | decFeedHdrLen b => grind [exec, execDecFeedHdrLen, encode, decode, selectFeed]
  | decFeedBodyMore b => grind [exec, execDecFeedBodyMore, encode, decode, selectFeed]
  | decFeedBodyEmit b => grind [exec, execDecFeedBodyEmit, encode, decode, selectFeed]
  | decFeedBodyReject b => grind [exec, execDecFeedBodyReject, encode, decode, selectFeed]
  | decTimeoutS1 => grind [exec, execDecTimeoutS1, encode, decode, selectTimeout]
  | decTimeoutS2 => grind [exec, execDecTimeoutS2, encode, decode, selectTimeout]
  | decTimeoutHdr => grind [exec, execDecTimeoutHdr, encode, decode, selectTimeout]
  | decTimeoutBody => grind [exec, execDecTimeoutBody, encode, decode, selectTimeout]

/-- An operation that runs has the effect of the input it is encoded as. -/
theorem eq_effect_of_exec_next {i : Instr} {s t : State} (h : exec i s = .next t) : t = s.effect (encode i) := by
  by_cases hframe : ∃ messageId length payload check, i = .frame messageId length payload check
  · obtain ⟨messageId, length, payload, check, rfl⟩ := hframe
    exact (Host.Outcome.next.inj h).symm
  · have heffect := exec_decode s (encode i)
    rw [decode_encode_of_exec_next h fun _ _ _ _ hi => hframe ⟨_, _, _, _, hi⟩, h] at heffect
    exact Host.Outcome.next.inj heffect

/-- The three forms of what an operation that runs can do, one per agent. -/
theorem exec_next_cases_by_agent (i : Instr) :
    (i.agent = .dec ∧ ∃ f : DecState → DecState × List Event, ∀ s t : State,
      exec i s = .next t → t = s.deliver (f s.dec)) ∨
    (i.agent = .enc ∧ ∃ r : EncodeResponse, ∀ s t : State, exec i s = .next t → t = s.respond r) ∨
    (i.agent = .crc ∧ ∃ (f : Byte → Byte) (cs : List Byte), ∀ s t : State, exec i s = .next t →
      t = { s with crcAcc := f s.crcAcc, crcResults := s.crcResults ++ cs }) := by
  obtain ⟨ha, f, hf⟩ | ⟨ha, r, hr⟩ | ⟨ha, f, cs, hf⟩ := effect_cases_by_agent (encode i) <;> rw [encode_agent] at ha
  · exact .inl ⟨ha, f, fun s t h => (eq_effect_of_exec_next h).trans (hf s)⟩
  · exact .inr (.inl ⟨ha, r, fun s t h => (eq_effect_of_exec_next h).trans (hr s)⟩)
  · exact .inr (.inr ⟨ha, f, cs, fun s t h => (eq_effect_of_exec_next h).trans (hf s)⟩)

end Sys2Proof.Machine

/-! ## The obligations -/

namespace Sys2Proof.Proofs

open Sys2Proof.Machine

/-- Settles O42: an idle step changes nothing, and the effect of the input that a step takes only appends. -/
theorem streamsOnlyGrow : Obligations.StreamsOnlyGrow := by
  intro s t hstep
  obtain ⟨hx, rfl⟩ | ⟨x, rest, hx, rfl⟩ := step_next_cases hstep
  · simp [hx]
  · rw [hx, List.tail_cons]
    exact effect_streams_grow (s.setInputs rest) x

/-- Settles O46: what an operation does has the form of its own agent, and the same form from every state. -/
theorem agentsDoNotInteract : Obligations.AgentsDoNotInteract := by
  refine ⟨fun i s t h => ?_, fun i s t s' t' h h' => ?_⟩
  · obtain ⟨ha, f, hf⟩ | ⟨ha, r, hr⟩ | ⟨ha, f, cs, hf⟩ := exec_next_cases_by_agent i
    · simp [ha, hf s t h]
    · simp [ha, hr s t h]
    · simp [ha, hf s t h]
  · obtain ⟨ha, f, hf⟩ | ⟨ha, r, hr⟩ | ⟨ha, f, cs, hf⟩ := exec_next_cases_by_agent i
    · simp +contextual [ha, hf s t h, hf s' t' h']
    · simp [ha, hr s t h, hr s' t' h']
    · simp +contextual [ha, hf s t h, hf s' t' h']

/-- Settles O34: the step by its two equations, with an input pending and with none. -/
theorem stepRunsTheSelectedOperation : Obligations.StepRunsTheSelectedOperation :=
  ⟨fun _ _ _ hx => step_of_inputs hx, fun _ hx => step_idle hx⟩

end Sys2Proof.Proofs

/-! SUPPORT. Proofs of the family 30_encoding: which operation an input selects, the wire format, and that decoding and
encoding are inverse to each other (30_encoding.md R60, R66, R67). -/

/-! ## The wire format is read back (R60) -/

namespace Sys2Proof.Machine

/-- A body of `length` payload bytes and a checksum byte is split there. -/
theorem splitBody_append {length : Byte} {payload : List Byte} (h : payload.length = length.toNat)
    (messageId check : Byte) (after : List Byte) :
    splitBody messageId length (payload ++ check :: after) = .ok (.frame messageId length payload check, after) := by
  simp [splitBody, ← h]

/-- The bytes of a frame are read as that frame, and nothing is left over. -/
theorem decodeWire_frameBytes {length : Byte} {payload : List Byte} (h : payload.length = length.toNat)
    (messageId check : Byte) :
    decodeWire (frameBytes messageId length payload check) = .ok (.frame messageId length payload check) := by
  simp [decodeWire, decodeFrame, frameBytes, splitBody_append h]

/-- The bytes read as one frame are those of R60, with any checksum byte (log 4). -/
theorem decodeWire_eq_ok_iff {bytes : List Byte} {i : Instr} :
    decodeWire bytes = .ok i ↔ ∃ messageId length check payload, payload.length = length.toNat ∧
      bytes = frameBytes messageId length payload check ∧ i = .frame messageId length payload check := by
  constructor
  · intro h
    obtain ⟨messageId, length, payload, check, hlen, hbytes, hi⟩ := decodeFrame_eq_ok (decodeFrame_of_decodeWire h)
    exact ⟨messageId, length, check, payload, hlen, by simpa using hbytes, hi⟩
  · rintro ⟨messageId, length, check, payload, hlen, rfl, rfl⟩
    exact decodeWire_frameBytes hlen messageId check

/-- The bytes of a frame select it. -/
theorem selectWire_frameBytes {length : Byte} {payload : List Byte} (h : payload.length = length.toNat)
    (messageId check : Byte) :
    selectWire (frameBytes messageId length payload check) = .frame messageId length payload check := by
  rw [selectWire, decodeWire_frameBytes h]

/-- FRAME is well formed when its `length` byte is its payload's count. -/
theorem frame_wellFormed_iff {messageId length check : Byte} {payload : List Byte} :
    (Instr.frame messageId length payload check).WellFormed ↔ payload.length = length.toNat := by
  simp [Instr.WellFormed, Instr.illFormed]

/-! ## The guard of each row (R66, R67)

In which decoder states, and on which bytes, a row that does not apply in every state applies. -/

section Guards

variable {d : DecState} {b : Byte}

theorem mode_eq_seekPreamble1_iff : d.mode = .seekPreamble1 ↔ d = .seekPreamble1 := by
  cases d <;> simp [DecState.mode]

theorem mode_eq_seekPreamble2_iff : d.mode = .seekPreamble2 ↔ d = .seekPreamble2 := by
  cases d <;> simp [DecState.mode]

theorem mode_eq_readHeader_iff : d.mode = .readHeader ↔ ∃ hdr, d = .readHeader hdr := by
  cases d <;> simp [DecState.mode]

theorem mode_eq_readBody_iff :
    d.mode = .readBody ↔ ∃ messageId length body, d = .readBody messageId length body := by
  cases d <;> simp [DecState.mode]

theorem applies_decFeedS1P1_iff : Instr.decFeedS1P1.applies d = true ↔ d = .seekPreamble1 := by
  simp [Instr.applies, mode_eq_seekPreamble1_iff]

theorem applies_decFeedS1Other_iff :
    (Instr.decFeedS1Other b).applies d = true ↔ d = .seekPreamble1 ∧ b ≠ Config.preamble1 := by
  simp [Instr.applies, mode_eq_seekPreamble1_iff]

theorem applies_decFeedS2P2_iff : Instr.decFeedS2P2.applies d = true ↔ d = .seekPreamble2 := by
  simp [Instr.applies, mode_eq_seekPreamble2_iff]

theorem applies_decFeedS2P1_iff : Instr.decFeedS2P1.applies d = true ↔ d = .seekPreamble2 := by
  simp [Instr.applies, mode_eq_seekPreamble2_iff]

theorem applies_decFeedS2Other_iff :
    (Instr.decFeedS2Other b).applies d = true ↔
      d = .seekPreamble2 ∧ b ≠ Config.preamble2 ∧ b ≠ Config.preamble1 := by
  simp [Instr.applies, mode_eq_seekPreamble2_iff, and_assoc]

theorem applies_decFeedHdrId_iff : (Instr.decFeedHdrId b).applies d = true ↔ d = .readHeader [] := by
  simp only [Instr.applies]; split <;> simp_all

theorem applies_decFeedHdrLen_iff :
    (Instr.decFeedHdrLen b).applies d = true ↔ ∃ messageId t, d = .readHeader (messageId :: t) := by
  simp only [Instr.applies]; split <;> simp_all

theorem applies_decFeedBodyMore_iff :
    (Instr.decFeedBodyMore b).applies d = true ↔
      ∃ messageId length body, d = .readBody messageId length body ∧ bodyCompletes length body = false := by
  cases d <;> simp [Instr.applies]

theorem applies_decFeedBodyEmit_iff :
    (Instr.decFeedBodyEmit b).applies d = true ↔
      ∃ messageId length body, d = .readBody messageId length body ∧ bodyCompletes length body = true ∧
        checksumMatches messageId length (body ++ [b]) = true := by
  cases d <;> simp [Instr.applies]

theorem applies_decFeedBodyReject_iff :
    (Instr.decFeedBodyReject b).applies d = true ↔
      ∃ messageId length body, d = .readBody messageId length body ∧ bodyCompletes length body = true ∧
        checksumMatches messageId length (body ++ [b]) = false := by
  cases d <;> simp [Instr.applies]

theorem applies_decTimeoutS1_iff : Instr.decTimeoutS1.applies d = true ↔ d = .seekPreamble1 := by
  simp [Instr.applies, mode_eq_seekPreamble1_iff]

theorem applies_decTimeoutS2_iff : Instr.decTimeoutS2.applies d = true ↔ d = .seekPreamble2 := by
  simp [Instr.applies, mode_eq_seekPreamble2_iff]

theorem applies_decTimeoutHdr_iff : Instr.decTimeoutHdr.applies d = true ↔ ∃ hdr, d = .readHeader hdr := by
  simp [Instr.applies, mode_eq_readHeader_iff]

theorem applies_decTimeoutBody_iff :
    Instr.decTimeoutBody.applies d = true ↔ ∃ messageId length body, d = .readBody messageId length body := by
  simp [Instr.applies, mode_eq_readBody_iff]

end Guards

/-! ## Decoding and encoding are inverse to each other -/

/-- The input a well-formed operation is encoded as selects it wherever its row applies. -/
theorem decode_encode {i : Instr} {d : DecState} (hwf : i.WellFormed) (h : i.applies d = true) :
    decode d (encode i) = i := by
  cases i with
  | frame messageId length payload check => exact selectWire_frameBytes (frame_wellFormed_iff.mp hwf) messageId check
  | crcClear | crcBit | crcByte | crcSeq | encEncode | decReset | decFeedn => rfl
  | decFeedS1P1 => obtain rfl := applies_decFeedS1P1_iff.mp h; rfl
  | decFeedS1Other b =>
    obtain ⟨rfl, h1⟩ := applies_decFeedS1Other_iff.mp h
    exact if_neg h1
  | decFeedS2P2 => obtain rfl := applies_decFeedS2P2_iff.mp h; rfl
  | decFeedS2P1 => obtain rfl := applies_decFeedS2P1_iff.mp h; rfl
  | decFeedS2Other b =>
    obtain ⟨rfl, h2, h1⟩ := applies_decFeedS2Other_iff.mp h
    exact (if_neg h2).trans (if_neg h1)
  | decFeedHdrId b => obtain rfl := applies_decFeedHdrId_iff.mp h; rfl
  | decFeedHdrLen b => obtain ⟨messageId, t, rfl⟩ := applies_decFeedHdrLen_iff.mp h; rfl
  | decFeedBodyMore b =>
    obtain ⟨messageId, length, body, rfl, hc⟩ := applies_decFeedBodyMore_iff.mp h
    simp [encode, decode, selectFeed, hc]
  | decFeedBodyEmit b =>
    obtain ⟨messageId, length, body, rfl, hc, hm⟩ := applies_decFeedBodyEmit_iff.mp h
    simp [encode, decode, selectFeed, hc, hm]
  | decFeedBodyReject b =>
    obtain ⟨messageId, length, body, rfl, hc, hm⟩ := applies_decFeedBodyReject_iff.mp h
    simp [encode, decode, selectFeed, hc, hm]
  | decTimeoutS1 => obtain rfl := applies_decTimeoutS1_iff.mp h; rfl
  | decTimeoutS2 => obtain rfl := applies_decTimeoutS2_iff.mp h; rfl
  | decTimeoutHdr => obtain ⟨hdr, rfl⟩ := applies_decTimeoutHdr_iff.mp h; rfl
  | decTimeoutBody => obtain ⟨messageId, length, body, rfl⟩ := applies_decTimeoutBody_iff.mp h; rfl

/-- The row that R66 selects for a byte is well formed, applies, and is encoded as that byte. -/
theorem selectFeed_sound (d : DecState) (b : Byte) :
    (selectFeed d b).WellFormed ∧ (selectFeed d b).applies d = true ∧ encode (selectFeed d b) = .byte b := by
  match d with
  | .seekPreamble1 =>
    by_cases h1 : b = Config.preamble1
    · rw [h1]; exact ⟨rfl, rfl, rfl⟩
    · rw [selectFeed, if_neg h1]
      exact ⟨if_neg h1, applies_decFeedS1Other_iff.mpr ⟨rfl, h1⟩, rfl⟩
  | .seekPreamble2 =>
    by_cases h2 : b = Config.preamble2
    · rw [h2]; exact ⟨rfl, rfl, rfl⟩
    by_cases h1 : b = Config.preamble1
    · rw [h1]; exact ⟨rfl, rfl, rfl⟩
    · rw [selectFeed, if_neg h2, if_neg h1]
      exact ⟨(if_neg h2).trans (if_neg h1), applies_decFeedS2Other_iff.mpr ⟨rfl, h2, h1⟩, rfl⟩
  | .readHeader [] => exact ⟨rfl, rfl, rfl⟩
  | .readHeader (_ :: _) => exact ⟨rfl, rfl, rfl⟩
  | .readBody messageId length body =>
    rw [selectFeed]
    split
    next hc =>
      split
      next hm => exact ⟨rfl, applies_decFeedBodyEmit_iff.mpr ⟨_, _, _, rfl, hc, hm⟩, rfl⟩
      next hm => exact ⟨rfl, applies_decFeedBodyReject_iff.mpr ⟨_, _, _, rfl, hc, by simpa using hm⟩, rfl⟩
    next hc => exact ⟨rfl, applies_decFeedBodyMore_iff.mpr ⟨_, _, _, rfl, by simpa using hc⟩, rfl⟩

/-- The row that R67 selects for a timeout is well formed, applies, and is encoded as a timeout. -/
theorem selectTimeout_sound (d : DecState) :
    (selectTimeout d).WellFormed ∧ (selectTimeout d).applies d = true ∧ encode (selectTimeout d) = .timeout := by
  cases d <;> exact ⟨rfl, rfl, rfl⟩

/-- A byte is the encoding of exactly one well-formed operation that applies: the row R66 selects for it. -/
theorem encode_eq_byte_iff {i : Instr} {d : DecState} {b : Byte} :
    (i.WellFormed ∧ i.applies d = true ∧ encode i = .byte b) ↔ i = selectFeed d b := by
  constructor
  · rintro ⟨hwf, happ, hb⟩
    calc i = decode d (encode i) := (decode_encode hwf happ).symm
      _ = selectFeed d b := by rw [hb, decode]
  · rintro rfl
    exact selectFeed_sound d b

/-! ## An operation runs exactly where its row applies -/

/-- The byte tests of R66 are part of the guards: an ill-formed operation that applies is a FRAME. -/
theorem eq_frame_of_not_wellFormed {i : Instr} {d : DecState} (h : i.applies d = true) (hwf : ¬ i.WellFormed) :
    ∃ messageId length payload check, i = .frame messageId length payload check := by
  cases i with
  | frame messageId length payload check => exact ⟨messageId, length, payload, check, rfl⟩
  | decFeedS1Other b => exact absurd (if_neg (applies_decFeedS1Other_iff.mp h).2) hwf
  | decFeedS2Other b =>
    obtain ⟨-, h2, h1⟩ := applies_decFeedS2Other_iff.mp h
    exact absurd ((if_neg h2).trans (if_neg h1)) hwf
  | _ => exact absurd rfl hwf

/-- Where its row applies an operation has the effect of the input it is encoded as. -/
theorem exec_of_applies {i : Instr} {s : State} (h : i.applies s.dec = true) :
    exec i s = .next (s.effect (encode i)) := by
  by_cases hwf : i.WellFormed
  · calc exec i s = exec (decode s.dec (encode i)) s := by rw [decode_encode hwf h]
      _ = .next (s.effect (encode i)) := exec_decode s (encode i)
  · obtain ⟨messageId, length, payload, check, rfl⟩ := eq_frame_of_not_wellFormed h hwf
    rfl

/-- Where its row does not apply an operation is refused by name (log 5). -/
theorem exec_of_not_applies {i : Instr} {s : State} (h : i.applies s.dec = false) :
    exec i s = .refused .operationNotSelected := by
  cases i with
  | frame | crcClear | crcBit | crcByte | crcSeq | encEncode | decReset | decFeedn => cases h
  | decFeedS1P1 => grind [exec, execDecFeedS1P1, applies_decFeedS1P1_iff]
  | decFeedS1Other b => grind [exec, execDecFeedS1Other, applies_decFeedS1Other_iff]
  | decFeedS2P2 => grind [exec, execDecFeedS2P2, applies_decFeedS2P2_iff]
  | decFeedS2P1 => grind [exec, execDecFeedS2P1, applies_decFeedS2P1_iff]
  | decFeedS2Other b => grind [exec, execDecFeedS2Other, applies_decFeedS2Other_iff]
  | decFeedHdrId b => grind [exec, execDecFeedHdrId, applies_decFeedHdrId_iff]
  | decFeedHdrLen b => grind [exec, execDecFeedHdrLen, applies_decFeedHdrLen_iff]
  | decFeedBodyMore b => grind [exec, execDecFeedBodyMore, applies_decFeedBodyMore_iff]
  | decFeedBodyEmit b => grind [exec, execDecFeedBodyEmit, applies_decFeedBodyEmit_iff]
  | decFeedBodyReject b => grind [exec, execDecFeedBodyReject, applies_decFeedBodyReject_iff]
  | decTimeoutS1 => grind [exec, execDecTimeoutS1, applies_decTimeoutS1_iff]
  | decTimeoutS2 => grind [exec, execDecTimeoutS2, applies_decTimeoutS2_iff]
  | decTimeoutHdr => grind [exec, execDecTimeoutHdr, applies_decTimeoutHdr_iff]
  | decTimeoutBody => grind [exec, execDecTimeoutBody, applies_decTimeoutBody_iff]

/-! ## Feeding a frame -/

/-- Bytes that do not overfill an open body are appended with no event (R121). -/
theorem decFeedn_body_more {messageId length : Byte} {body bs : List Byte}
    (h : body.length + bs.length ≤ length.toNat) :
    decFeedn (.readBody messageId length body) bs = (.readBody messageId length (body ++ bs), []) := by
  induction bs generalizing body with
  | nil => simp
  | cons b t ih =>
    rw [List.length_cons] at h
    have hmore : decFeed (.readBody messageId length body) b = (.readBody messageId length (body ++ [b]), []) :=
      decFeed_more (by omega)
    have htail := ih (body := body ++ [b]) (by simp; omega)
    simp [decFeedn_cons, hmore, htail]

/-- A frame met while seeking ends in its one event: the checksum byte alone decides which (R122, R123). -/
theorem decFeedn_frameBytes {d : DecState} (hd : d.Seeking) {length : Byte} {payload : List Byte}
    (h : payload.length = length.toNat) (messageId check : Byte) :
    decFeedn d (frameBytes messageId length payload check) =
      (.seekPreamble1,
        [if check = checksum (coverage messageId length payload) then .frame messageId payload
         else .checksumMismatch messageId length (checksum (coverage messageId length payload)) check]) := by
  have hpayload : decFeedn (.readBody messageId length []) payload = (.readBody messageId length payload, []) :=
    decFeedn_body_more (by simp [h])
  calc decFeedn d (frameBytes messageId length payload check)
      = decFeedn (.readBody messageId length []) (payload ++ [check]) := decFeedn_open hd messageId length _
    _ = decFeed (.readBody messageId length payload) check := by
        rw [decFeedn_append, hpayload, decFeedn_singleton]; rfl
    _ = _ := decFeed_last h

/-! ## Checksum inputs, one byte at a time -/

/-- One CRC.BYTE input for each byte of a sequence absorbs the sequence (R84). -/
theorem run_crcBytes (bs : List Byte) (rest : List Input) (s : State) :
    run bs.length (s.setInputs (bs.map .crcByte ++ rest)) =
      .next ((s.setInputs rest).setCrcAcc (absorb s.crcAcc bs)) := by
  induction bs generalizing s with
  | nil => rfl
  | cons b t ih =>
    rw [List.length_cons, run_succ_of_next (step_eq_effect rfl)]
    exact ih (s.setCrcAcc (crc8Byte s.crcAcc b))

/-! ## Table words (log 6) -/

/-- A table word is presented as a byte when it has 8 bits, and otherwise as bytes on the wire. -/
theorem tableInput_cases {nbits w : Nat} {x : Input} (h : tableInput nbits w = some x) :
    (nbits = 8 ∧ x = .byte (BitVec.ofNat 8 w)) ∨ (nbits ≠ 8 ∧ ∃ bytes, x = .wire bytes) := by
  unfold tableInput at h
  split at h
  next h8 => cases h; exact .inl ⟨h8, rfl⟩
  next h8 =>
    split at h
    · split at h
      next i after hframe =>
        obtain ⟨messageId, length, payload, check, -, -, rfl⟩ := decodeFrame_eq_ok hframe
        cases h; exact .inr ⟨h8, _, rfl⟩
      · cases h
    · cases h

/-- The operation read from a table word does not depend on the decoder it is presented to. -/
theorem decode_tableState {nbits w : Nat} {x : Input} (h : tableInput nbits w = some x) (d d' : DecState) :
    decode (tableState nbits w d) x = decode (tableState nbits w d') x := by
  obtain ⟨rfl, -⟩ | ⟨-, bytes, rfl⟩ := tableInput_cases h
  · rfl
  · rfl

/-- A table word that stands for an input is taken in the next step, in the mode it is read in. -/
theorem step_withFetchWord {nbits w : Nat} {x : Input} (h : tableInput nbits w = some x) (s : State) :
    step (s.withFetchWord nbits w) =
      exec (decode (tableState nbits w s.dec) x) (s.setDec (tableState nbits w s.dec)) := by
  rw [State.withFetchWord, h]
  exact step_of_inputs rfl

end Sys2Proof.Machine

/-! ## The obligations -/

namespace Sys2Proof.Proofs

open Sys2Proof.Machine

/-- Settles O30: a row's guard is the test by which its input selects it, and a frame's bytes are parsed back. -/
theorem decodeOfEncodeIsTheOperation : Obligations.DecodeOfEncodeIsTheOperation :=
  fun _ _ hwf happ => decode_encode hwf happ

/-- Settles O5: each input is one step, and the bytes are absorbed from the cleared accumulator. -/
theorem crcSeqIsClearThenBytes : Obligations.CrcSeqIsClearThenBytes := by
  refine fun bs rest s => ⟨?_, ?_⟩
  · rw [run_succ_of_next (step_eq_effect rfl)]
    exact run_crcBytes bs rest (s.setCrcAcc Config.crcInit)
  · rw [run_succ_of_next (step_eq_effect rfl)]; rfl

/-- Settles O26: the preamble and the header open the body, the payload fills it, and the checksum byte decides. -/
theorem frameOnTheWireIsEmittedOrReported : Obligations.FrameOnTheWireIsEmittedOrReported := by
  intro messageId length check payload s hd hlen
  calc exec (.frame messageId length payload check) s
      = .next (s.deliver (decFeedn s.dec (frameBytes messageId length payload check))) := rfl
    _ = _ := by rw [decFeedn_frameBytes hd hlen]; rfl

/-- Settles O28: where the row applies the operation is the one its input selects, and elsewhere its guard refuses. -/
theorem operationsRunExactlyWhereSelected : Obligations.OperationsRunExactlyWhereSelected :=
  fun _ _ => ⟨fun h => ⟨_, exec_of_applies h⟩, exec_of_not_applies⟩

/-- Settles O29: the row is the one R66 selects, and any other that applies decodes to it. -/
theorem everyByteSelectsExactlyOneRow : Obligations.EveryByteSelectsExactlyOneRow :=
  fun d b => ⟨selectFeed d b, selectFeed_sound d b, fun _ h => encode_eq_byte_iff.mp h⟩

/-- Settles O31: by the kind of input; bytes on the wire by whether they are one frame. -/
theorem selectedOperationEncodesBack : Obligations.SelectedOperationEncodesBack := by
  intro d x
  cases x with
  | byte b =>
    obtain ⟨hwf, happ, henc⟩ := selectFeed_sound d b
    exact ⟨hwf, happ, .inl henc⟩
  | timeout =>
    obtain ⟨hwf, happ, henc⟩ := selectTimeout_sound d
    exact ⟨hwf, happ, .inl henc⟩
  | wire bytes =>
    obtain ⟨i, hw, hi⟩ | ⟨why, hw, hi⟩ := selectWire_cases bytes
    · obtain ⟨messageId, length, check, payload, hlen, rfl, rfl⟩ := decodeWire_eq_ok_iff.mp hw
      rw [decode, hi]
      exact ⟨frame_wellFormed_iff.mpr hlen, rfl, .inl rfl⟩
    · rw [decode, hi]
      exact ⟨rfl, rfl, .inr ⟨bytes, why, rfl, hw, rfl⟩⟩
  | reset | chunk | encode | crcClear | crcBit | crcByte | crcSeq => exact ⟨rfl, rfl, .inl rfl⟩

/-- Settles O32: the parser accepts the bytes of a frame and no others. -/
theorem wireFormatIsExact : Obligations.WireFormatIsExact :=
  fun _ _ => decodeWire_eq_ok_iff

/-- Settles O37: the word's input is the oldest one, and what it selects does not depend on the decoder it is presented
to. -/
theorem tableWordRunsNext : Obligations.TableWordRunsNext := by
  intro s nbits w i h
  unfold decodeTableWord at h
  split at h
  · cases h
  next x hx =>
    cases h
    rw [step_withFetchWord hx, decode_tableState hx s.dec .seekPreamble1]; rfl

/-- Settles O27: FRAME by its meaning, and bytes on the wire by what they select. -/
theorem frameIsTheFeedCallOfItsBytes : Obligations.FrameIsTheFeedCallOfItsBytes :=
  ⟨fun _ _ _ _ _ => rfl,
    fun bytes rest s hx => (step_of_inputs hx).trans (exec_selectWire bytes (s.setInputs rest))⟩

/-- Settles O33: the row of each byte, the frame of the seven bytes, and the table word by running its parser. -/
theorem encodedWordsSelectTheirOperations : Obligations.EncodedWordsSelectTheirOperations := by
  refine ⟨rfl, rfl, rfl, rfl, ?_,
    selectWire_frameBytes (length := 0x02) (payload := [0x68, 0x69]) rfl 0x01 0x85, ?_⟩
  · exact decode_encode (i := .decFeedBodyEmit 0x85) rfl (by decide +kernel)
  · decide +kernel

end Sys2Proof.Proofs

/-! SUPPORT. Proofs of the family 40_checksum: the operations of the checksum engine, and the laws that follow from the
shift step (40_checksum.md R80 to R91). -/

/-! ## The shift step (R81, R87, R90) -/

namespace Sys2Proof.Machine

/-- The test of R81 is bit 7 of the value as a number. -/
theorem getLsbD_seven_iff (a : Byte) : a.getLsbD 7 = true ↔ a.toNat / 128 % 2 = 1 := by
  simp [BitVec.getLsbD, Nat.testBit_eq_decide_div_mod_eq]

theorem crc8Bit_of_bit {a : Byte} (h : a.getLsbD 7 = true) : crc8Bit a = a <<< 1 ^^^ Config.poly := if_pos h

theorem crc8Bit_of_not_bit {a : Byte} (h : a.getLsbD 7 = false) : crc8Bit a = a <<< 1 :=
  if_neg (ne_true_of_eq_false h)

/-- Over natural numbers the shift step masks to 8 bits after the shift and the XOR (R81, R88). -/
theorem crc8Bit_eq_ofNat (a : Byte) :
    crc8Bit a = BitVec.ofNat 8 (if a.toNat / 128 % 2 = 1 then ((a.toNat <<< 1) ^^^ 0x07) % 256
      else (a.toNat <<< 1) % 256) := by
  have hxor (n : Nat) : (n ^^^ 0x07) % 2 ^ 8 = n % 2 ^ 8 ^^^ 0x07 := Nat.xor_mod_two_pow
  apply BitVec.eq_of_toNat_eq
  cases h : a.getLsbD 7 with
  | false =>
    rw [crc8Bit_of_not_bit h, if_neg (mt (getLsbD_seven_iff a).mpr (ne_true_of_eq_false h))]
    simp
  | true =>
    rw [crc8Bit_of_bit h, if_pos ((getLsbD_seven_iff a).mp h)]
    simpa using (hxor _).symm

/-- `POLY` is odd, so bit 0 of the result is the bit that was tested (R90). -/
theorem crc8Bit_getLsbD_zero (a : Byte) : (crc8Bit a).getLsbD 0 = a.getLsbD 7 := by
  cases h : a.getLsbD 7 with
  | false => rw [crc8Bit_of_not_bit h]; simp
  | true => rw [crc8Bit_of_bit h]; simp

/-- The conditional XOR is `POLY` multiplied by bit 7 (R87). -/
theorem crc8Bit_eq_xor_cond (a : Byte) : crc8Bit a = a <<< 1 ^^^ bif a.getLsbD 7 then Config.poly else 0#8 := by
  cases h : a.getLsbD 7 with
  | false => rw [crc8Bit_of_not_bit h, cond_false, BitVec.xor_zero]
  | true => rw [crc8Bit_of_bit h, cond_true]

/-- The shift is bitwise, and so is `POLY` multiplied by bit 7 (R87). -/
theorem crc8Bit_xor (a b : Byte) : crc8Bit (a ^^^ b) = crc8Bit a ^^^ crc8Bit b := by
  have hcond (x y : Bool) : (bif x ^^ y then Config.poly else 0#8) =
      (bif x then Config.poly else 0#8) ^^^ (bif y then Config.poly else 0#8) := by
    cases x <;> cases y <;> rfl
  simp only [crc8Bit_eq_xor_cond, BitVec.getLsbD_xor, hcond, BitVec.shiftLeft_xor_distrib]
  ac_rfl

/-- Only zero is shifted to zero: bit 0 shows that the bit dropped was 0 (R90). -/
theorem eq_zero_of_crc8Bit_eq_zero {a : Byte} (h : crc8Bit a = 0#8) : a = 0#8 := by
  have h7 : a.getLsbD 7 = false := by rw [← crc8Bit_getLsbD_zero, h]; rfl
  have hbit : ¬ a.toNat / 128 % 2 = 1 := mt (getLsbD_seven_iff a).mpr (ne_true_of_eq_false h7)
  have hshift : a <<< 1 = 0#8 := crc8Bit_of_not_bit h7 ▸ h
  bv_omega

theorem crc8Bit_injective : Function.Injective crc8Bit := by
  intro a b h
  rw [← BitVec.xor_eq_zero_iff]
  exact eq_zero_of_crc8Bit_eq_zero (by rw [crc8Bit_xor, h, BitVec.xor_self])

theorem crc8Bit_bijective : Function.Bijective crc8Bit :=
  Finite.injective_iff_bijective.mp crc8Bit_injective

/-! ## The byte step (R82, R86, R87, R90) -/

/-- Shift steps in a row are the iterate of one. -/
theorem crc8Bits_eq_iterate (n : Nat) : crc8Bits n = crc8Bit^[n] := by
  induction n with
  | zero => rfl
  | succ n ih => funext a; exact congrFun ih (crc8Bit a)

/-- Linearity passes to shift steps in a row. -/
theorem crc8Bits_xor (n : Nat) (a b : Byte) : crc8Bits n (a ^^^ b) = crc8Bits n a ^^^ crc8Bits n b := by
  induction n generalizing a b with
  | zero => rfl
  | succ n ih => simp only [crc8Bits, crc8Bit_xor, ih]

theorem crc8Bits_bijective (n : Nat) : Function.Bijective (crc8Bits n) := by
  rw [crc8Bits_eq_iterate]
  exact crc8Bit_bijective.iterate n

/-- Linearity of the byte step, in both arguments together (R87). -/
theorem crc8Byte_xor (a a' b b' : Byte) :
    crc8Byte (a ^^^ a') (b ^^^ b') = crc8Byte a b ^^^ crc8Byte a' b' := by
  have hswap : (a ^^^ a') ^^^ (b ^^^ b') = (a ^^^ b) ^^^ (a' ^^^ b') := by ac_rfl
  rw [crc8Byte, hswap, crc8Bits_xor]; rfl

/-- Accumulator and byte can be exchanged, since only their XOR counts (R82). -/
theorem crc8Byte_comm (a b : Byte) : crc8Byte a b = crc8Byte b a := by
  rw [crc8Byte, BitVec.xor_comm]; rfl

/-- The byte step as a step from the cleared accumulator (R82). -/
theorem crc8Byte_eq_zero_xor (a b : Byte) : crc8Byte a b = crc8Byte 0x00 (a ^^^ b) := by
  rw [crc8Byte, crc8Byte, show (0x00 : Byte) ^^^ (a ^^^ b) = a ^^^ b from BitVec.zero_xor]

/-- For each accumulator the byte step is a bijection in the byte (R90). -/
theorem crc8Byte_bijective_right (a : Byte) : Function.Bijective (crc8Byte a) :=
  (crc8Bits_bijective 8).comp (Function.Involutive.bijective fun b => by simp)

/-- For each byte the byte step is a bijection in the accumulator (R90). -/
theorem crc8Byte_bijective_left (b : Byte) : Function.Bijective (fun a => crc8Byte a b) := by
  simpa only [crc8Byte_comm _ b] using crc8Byte_bijective_right b

/-- Only a byte equal to the accumulator clears it (R82, R89). -/
theorem crc8Byte_eq_zero_iff {a b : Byte} : crc8Byte a b = 0 ↔ a = b := by
  rw [← crc8Byte_self a, (crc8Byte_bijective_right a).injective.eq_iff, eq_comm]

/-- The table lists the byte step of 0x00 and each byte, in order (R86). -/
theorem crcTable_eq_map : crcTable = (List.range 256).map fun x => crc8Byte 0x00 (BitVec.ofNat 8 x) := by
  decide +kernel

/-- A table entry is the byte step of 0x00 and its index (R86). -/
theorem crcTable_getElem? (x : Byte) : crcTable[x.toNat]? = some (crc8Byte 0x00 x) := by
  simp [crcTable_eq_map, x.isLt]

/-! ## The checksum of a sequence (R83, R84, R87, R89, R90, R91) -/

theorem checksum_append (s t : List Byte) : checksum (s ++ t) = absorb (checksum s) t := absorb_append ..

/-- With the byte step written out, absorbing is the fold of R83. -/
theorem absorb_eq_foldl_iterate (a : Byte) (s : List Byte) :
    absorb a s = s.foldl (fun a b => crc8Bit^[8] (a ^^^ b)) a := by
  rw [← crc8Bits_eq_iterate]; rfl

/-- Linearity of absorbing sequences of equal length, from any two accumulators (R87). -/
theorem absorb_zipWith_xor {s t : List Byte} (h : s.length = t.length) (a a' : Byte) :
    absorb (a ^^^ a') (List.zipWith (fun x y => x ^^^ y) s t) = absorb a s ^^^ absorb a' t := by
  induction s generalizing t a a' with
  | nil => rw [List.length_eq_zero_iff.mp h.symm]; rfl
  | cons x s ih =>
    cases t with
    | nil => cases h
    | cons y t =>
      rw [List.zipWith_cons_cons, absorb_cons, crc8Byte_xor]
      exact ih (Nat.succ.inj h) ..

/-- Accumulators that differ stay different through every later byte (R90). -/
theorem absorb_injective (s : List Byte) : Function.Injective (fun a => absorb a s) := by
  induction s with
  | nil => exact fun _ _ h => h
  | cons b t ih => exact ih.comp (crc8Byte_bijective_left b).injective

/-- Zeros leave a cleared accumulator cleared (R91). -/
theorem checksum_replicate_zero (n : Nat) : checksum (List.replicate n 0x00) = 0x00 := by
  induction n with
  | zero => rfl
  | succ n ih => exact ih

/-- The decoder's comparison on a complete body is the residue test (R89, R124). -/
theorem checksumMatches_iff_residue {messageId length : Byte} {body : List Byte}
    (h : body.length = length.toNat + 1) :
    checksumMatches messageId length body = true ↔ checksum (coverage messageId length body) = 0x00 := by
  obtain rfl | ⟨payload, check, rfl⟩ := body.eq_nil_or_concat'
  · cases h
  have hlen : payload.length = length.toNat := by simpa using h
  have hresidue : checksum (coverage messageId length (payload ++ [check])) =
      crc8Byte (checksum (coverage messageId length payload)) check :=
    checksum_append (coverage messageId length payload) [check]
  rw [checksumMatches_append hlen, beq_iff_eq, hresidue]
  exact crc8Byte_eq_zero_iff.symm

/-! ## What the engine's operations answer -/

theorem exec_crcClear (s : State) : exec .crcClear s = .next (s.setCrcAcc Config.crcInit) := rfl

theorem exec_crcBit (s : State) : exec .crcBit s = .next (s.setCrcAcc (crc8Bit s.crcAcc)) := rfl

theorem exec_crcByte (b : Byte) (s : State) : exec (.crcByte b) s = .next (s.setCrcAcc (crc8Byte s.crcAcc b)) := rfl

theorem exec_crcSeq (bs : List Byte) (s : State) :
    exec (.crcSeq bs) s = .next ((s.setCrcAcc (checksum bs)).report (checksum bs)) := rfl

end Sys2Proof.Machine

/-! ## The obligations -/

namespace Sys2Proof.Proofs

open Sys2Proof.Machine

/-- Settles O8: the shift step is linear, and so is whatever is composed of it from a zero accumulator. -/
theorem checksumIsLinearOverXor : Obligations.ChecksumIsLinearOverXor :=
  ⟨crc8Bit_xor, crc8Byte_xor, fun _ _ h => absorb_zipWith_xor h 0x00 0x00⟩

/-- Settles O9: the last byte clears the accumulator exactly when it equals it. -/
theorem matchingBodyLeavesNoResidue : Obligations.MatchingBodyLeavesNoResidue :=
  ⟨checksum_append_checksum, fun _ _ _ h => checksumMatches_iff_residue h⟩

/-- Settles O10: the changed byte changes the accumulator, and the bytes after it keep the difference. -/
theorem oneByteChangeChangesTheChecksum : Obligations.OneByteChangeChangesTheChecksum := by
  refine ⟨crc8Bit_getLsbD_zero, crc8Bit_bijective, crc8Byte_bijective_left, crc8Byte_bijective_right,
    fun p q a b hne heq => hne ?_⟩
  rw [checksum_append, checksum_append] at heq
  have hstep : crc8Byte (checksum p) a = crc8Byte (checksum p) b := absorb_injective q heq
  exact (crc8Byte_bijective_right _).injective hstep

/-- Settles O11: zeros keep the accumulator clear, so the checksum of the zero header is the zero byte that follows it. -/
theorem leadingZerosDoNotCount : Obligations.LeadingZerosDoNotCount := by
  have hheader : checksum (coverage 0x00 0x00 []) = 0x00 := checksum_replicate_zero 2
  refine ⟨checksum_replicate_zero, fun n s => ?_, ?_, ?_⟩
  · rw [checksum_append, checksum_replicate_zero]; rfl
  · rw [encodeFrame_of_le (by decide), show lengthByte [] = 0x00 from rfl, hheader]; rfl
  · have hfeed := decFeedn_frameBytes (d := .seekPreamble1) (.inl rfl) (length := 0x00) (payload := []) rfl 0x00 0x00
    rwa [if_pos hheader.symm] at hfeed

/-- Settles O1: by the meaning of CRC.CLEAR. -/
theorem crcClearZeroesTheAccumulator : Obligations.CrcClearZeroesTheAccumulator := exec_crcClear

/-- Settles O2: the shift step over 8-bit words is the masked one over natural numbers. -/
theorem crcBitIsOneShiftStep : Obligations.CrcBitIsOneShiftStep := by
  intro s
  rw [exec_crcBit, crc8Bit_eq_ofNat]; rfl

/-- Settles O3: the byte step sees the XOR of accumulator and byte only. -/
theorem crcByteAbsorbsOneByte : Obligations.CrcByteAbsorbsOneByte := by
  refine ⟨fun b s => ?_, crc8Byte_self, fun a b => ⟨crc8Byte_eq_zero_xor a b, ?_⟩⟩
  · rw [exec_crcByte, crc8Byte_eq_bits, crc8Bits_eq_iterate]; rfl
  · rw [crcTable_getElem?, ← crc8Byte_eq_zero_xor]

/-- Settles O4: the answer is the fold of R83, and the working register keeps it (log 1). -/
theorem crcSeqAnswersTheChecksum : Obligations.CrcSeqAnswersTheChecksum := by
  refine fun bs s => ⟨checksum bs, ?_⟩
  rw [exec_crcSeq, ← absorb_eq_foldl_iterate]; rfl

/-- Settles O6: absorbing goes on from the checksum of what came before. -/
theorem checksumIsIncremental : Obligations.ChecksumIsIncremental :=
  ⟨fun s b => checksum_append s [b], checksum_append⟩

/-- Settles O7: the table is the list of the byte steps from 0x00, and a byte acts through its XOR. -/
theorem byteTableIsTheAlgorithm : Obligations.ByteTableIsTheAlgorithm := by
  refine ⟨by rw [crcTable_eq_map, List.length_map, List.length_range], crcTable_getElem?, fun a b => ?_⟩
  rw [crcTable_getElem?, ← crc8Byte_eq_zero_xor]

end Sys2Proof.Proofs

/-! SUPPORT. Proofs of the family 41_encoder: what the encoder answers on either side of its bound, and what a successful
answer holds at each offset and leads a decoder to (41_encoder.md R100 to R104). -/

/-! ## The two answers of the encoder (R100, R101) -/

namespace Sys2Proof.Machine

/-- The encoder's failure, as one equation. -/
theorem encodeFrame_of_gt {messageId : Byte} {payload : List Byte} (h : 64 < payload.length) :
    encodeFrame messageId payload = .err .payloadTooLarge := if_pos h

/-- The encoder succeeds exactly within the bound, and then with the frame of the request. -/
theorem encodeFrame_eq_ok_iff {messageId : Byte} {payload f : List Byte} :
    encodeFrame messageId payload = .ok f ↔ payload.length ≤ 64 ∧
      f = frameBytes messageId (lengthByte payload) payload
        (checksum (coverage messageId (lengthByte payload) payload)) := by
  by_cases h : payload.length ≤ 64
  · simp [encodeFrame_of_le h, h, eq_comm]
  · simp [encodeFrame_of_gt (Nat.lt_of_not_le h), h]

/-! ## The offsets of a frame (R60, R104 (b)) -/

section Offsets

variable (messageId length check : Byte) (payload : List Byte)

/-- After the preamble stand the covered bytes and their checksum. -/
theorem drop_two_frameBytes :
    (frameBytes messageId length payload check).drop 2 = coverage messageId length payload ++ [check] := rfl

/-- The payload stands at offset 4. -/
theorem take_drop_four_frameBytes :
    ((frameBytes messageId length payload check).drop 4).take payload.length = payload :=
  List.take_left

/-- The checksum covers what stands at offsets 2 to `3 + n`. -/
theorem take_drop_two_frameBytes :
    ((frameBytes messageId length payload check).drop 2).take (payload.length + 2) =
      coverage messageId length payload := by
  rw [drop_two_frameBytes]; exact List.take_left' rfl

/-- The checksum byte stands right after the payload. -/
theorem frameBytes_getElem?_check :
    (frameBytes messageId length payload check)[4 + payload.length]? = some check := by
  rw [Nat.add_comm]; exact List.getElem?_concat_length

end Offsets

/-! ## A successful answer at a decoder (R104 (e), (f)) -/

/-- A seeking decoder reads an encoded frame as exactly its message. -/
theorem decFeedn_encodeFrame {d : DecState} (hd : d.Seeking) {messageId : Byte} {payload f : List Byte}
    (h : encodeFrame messageId payload = .ok f) : decFeedn d f = (.seekPreamble1, [.frame messageId payload]) := by
  obtain ⟨hle, rfl⟩ := encodeFrame_eq_ok_iff.mp h
  have hlen : payload.length = (lengthByte payload).toNat := (lengthByte_toNat (by omega)).symm
  rw [decFeedn_frameBytes hd hlen, if_pos rfl]

/-- Equal results come from equal requests, since a decoder reads the request back. -/
theorem encodeFrame_ok_injective {id1 id2 : Byte} {p1 p2 f : List Byte}
    (h1 : encodeFrame id1 p1 = .ok f) (h2 : encodeFrame id2 p2 = .ok f) : id1 = id2 ∧ p1 = p2 := by
  have hread := (decFeedn_encodeFrame (.inl rfl) h1).symm.trans (decFeedn_encodeFrame (.inl rfl) h2)
  simpa using hread

end Sys2Proof.Machine

/-! ## The obligations -/

namespace Sys2Proof.Proofs

open Sys2Proof.Machine

/-- Settles O14: (a) to (d) are read off the frame's layout, and (e) follows from (f), the decoder reading it back. -/
theorem encodedFrameLayout : Obligations.EncodedFrameLayout := by
  refine ⟨fun messageId payload f hok => ?_, fun _ _ _ _ _ => encodeFrame_ok_injective⟩
  have hdecode := decFeedn_encodeFrame (.inl rfl) hok
  obtain ⟨hle, rfl⟩ := encodeFrame_eq_ok_iff.mp hok
  have hcount : (lengthByte payload).toNat = payload.length := lengthByte_toNat (by omega)
  have hsize : (frameBytes messageId (lengthByte payload) payload
      (checksum (coverage messageId (lengthByte payload) payload))).length = payload.length + 5 := frameBytes_length ..
  refine ⟨hsize, by omega, by omega, rfl, rfl, rfl, congrArg some hcount, take_drop_four_frameBytes .., ?_, hle,
    checksum_append_checksum _, hdecode⟩
  rw [take_drop_two_frameBytes, frameBytes_getElem?_check]

/-- Settles O12: ENC.ENCODE answers the encoder's function, which has one equation on each side of the bound. -/
theorem encodeAnswersTheFrameOrTheError : Obligations.EncodeAnswersTheFrameOrTheError := by
  refine fun messageId payload s => ⟨fun hle => ?_, fun hgt => ?_⟩
  · rw [exec_encEncode, encodeFrame_of_le hle]; rfl
  · rw [exec_encEncode, encodeFrame_of_gt hgt]; rfl

end Sys2Proof.Proofs

/-! SUPPORT. Proofs of the family 42_decoder: the decoder's rows, the feed call and its events, recovery from noise, and what
one changed byte of a frame does (42_decoder.md R110 to R138). -/

/-! ## One step of the decoder (R110) -/

namespace Sys2Proof.Machine

/-- The decoder's part of an input's effect; an input to another agent is no decoder step. -/
def decStep (d : DecState) : Input → DecState × List Event
  | .byte b => decFeed d b
  | .timeout => decTimeout d
  | .reset => (.seekPreamble1, [])
  | .chunk bs => decFeedn d bs
  | .wire bs => decFeedn d bs
  | .encode _ _ => (d, [])
  | .crcClear => (d, [])
  | .crcBit => (d, [])
  | .crcByte _ => (d, [])
  | .crcSeq _ => (d, [])

/-- The effect of an input to the decoder is its decoder step, and nothing else. -/
theorem effect_eq_deliver {x : Input} (hx : x.agent = .dec) (s : State) : s.effect x = s.deliver (decStep s.dec x) := by
  cases x with
  | byte | timeout | chunk | wire => rfl
  | reset => exact (s.deliver_silent _).symm
  | encode | crcClear | crcBit | crcByte | crcSeq => cases hx

theorem DecoderItem.agent_eq {x : Input} (hx : DecoderItem x) : x.agent = .dec := by
  obtain rfl | rfl | ⟨b, rfl⟩ := hx <;> rfl

/-- A row of the decoder that applies is the decoder step of its input. -/
theorem exec_eq_deliver {i : Instr} {s : State} (ha : i.agent = .dec) (happ : i.applies s.dec = true) :
    exec i s = .next (s.deliver (decStep s.dec (encode i))) := by
  rw [exec_of_applies happ, effect_eq_deliver (by rw [encode_agent, ha])]

/-- A row whose decoder step has no event only moves the decoder. -/
theorem exec_silent {i : Instr} {s : State} {d d' : DecState} (hd : s.dec = d) (ha : i.agent = .dec)
    (happ : i.applies d = true) (hstep : decStep d (encode i) = (d', [])) : exec i s = .next (s.setDec d') := by
  subst hd
  rw [exec_eq_deliver ha happ, hstep, State.deliver_silent]

/-- A row whose decoder step ends a frame with an event raises that event (R157). -/
theorem exec_raise {i : Instr} {s : State} {d : DecState} {e : Event} (hd : s.dec = d) (ha : i.agent = .dec)
    (happ : i.applies d = true) (hstep : decStep d (encode i) = (.seekPreamble1, [e])) :
    exec i s = .next (s.raise e) := by
  subst hd
  rw [exec_eq_deliver ha happ, hstep, State.deliver_raise]

/-- Every step answers a next state (R110, R164). -/
theorem step_total (s : State) : ∃ t, step s = .next t := by
  cases hx : s.inputs with
  | nil => exact ⟨s, step_idle hx⟩
  | cons x rest => exact ⟨_, step_eq_effect hx⟩

/-- Two decoder steps in a row, the events in order. -/
theorem State.deliver_deliver (s : State) (r r' : DecState × List Event) :
    (s.deliver r).deliver r' = s.deliver (r'.1, r.2 ++ r'.2) := by
  simp [State.deliver, State.emit, State.setDec]

section Body

variable {messageId length b : Byte} {body : List Byte}

theorem applies_bodyMore (h : body.length < length.toNat) :
    (Instr.decFeedBodyMore b).applies (.readBody messageId length body) = true := by
  have hopen : bodyCompletes length body = false := by
    rw [← Bool.not_eq_true, bodyCompletes_iff]; omega
  exact applies_decFeedBodyMore_iff.mpr ⟨_, _, _, rfl, hopen⟩

theorem applies_bodyEmit (h : body.length = length.toNat) (hcheck : checksum (coverage messageId length body) = b) :
    (Instr.decFeedBodyEmit b).applies (.readBody messageId length body) = true :=
  applies_decFeedBodyEmit_iff.mpr ⟨_, _, _, rfl, (bodyCompletes_iff length body).mpr h.ge,
    by rw [checksumMatches_append h, beq_iff_eq, hcheck]⟩

theorem applies_bodyReject (h : body.length = length.toNat) (hcheck : checksum (coverage messageId length body) ≠ b) :
    (Instr.decFeedBodyReject b).applies (.readBody messageId length body) = true :=
  applies_decFeedBodyReject_iff.mpr ⟨_, _, _, rfl, (bodyCompletes_iff length body).mpr h.ge,
    by rw [checksumMatches_append h, beq_eq_false_iff_ne]; exact hcheck⟩

/-- The completing byte that is the recomputed checksum gives the `Frame` (R122). -/
theorem decFeed_matching (h : body.length = length.toNat) (hcheck : checksum (coverage messageId length body) = b) :
    decFeed (.readBody messageId length body) b = (.seekPreamble1, [.frame messageId body]) := by
  rw [decFeed_last h, if_pos hcheck.symm]

/-- A completing byte that differs from it gives the `ChecksumMismatch` (R123). -/
theorem decFeed_differing (h : body.length = length.toNat) (hcheck : checksum (coverage messageId length body) ≠ b) :
    decFeed (.readBody messageId length body) b = (.seekPreamble1,
      [.checksumMismatch messageId length (checksum (coverage messageId length body)) b]) := by
  rw [decFeed_last h, if_neg hcheck.symm]

end Body

/-! ## The event of a step (R122, R123, R138) -/

/-- The `message_id` an event carries. -/
def eventMessageId : Event → Option Byte
  | .frame messageId _ => some messageId
  | .checksumMismatch messageId _ _ _ => some messageId
  | .incompletePacket => none

theorem ne_incompletePacket_of_messageId {e : Event} {messageId : Byte} (h : eventMessageId e = some messageId) :
    e ≠ .incompletePacket := by
  rintro rfl; cases h

/-- A byte in a body is appended, or it ends the frame with one event, which carries the body's `message_id`. -/
theorem decFeed_readBody_cases (messageId length : Byte) (body : List Byte) (b : Byte) :
    decFeed (.readBody messageId length body) b = (.readBody messageId length (body ++ [b]), []) ∨
    ∃ e, decFeed (.readBody messageId length body) b = (.seekPreamble1, [e]) ∧ eventMessageId e = some messageId := by
  rw [decFeed]
  split
  · split
    · exact .inr ⟨_, rfl, rfl⟩
    · exact .inr ⟨_, rfl, rfl⟩
  · exact .inl rfl

/-- A timeout is silent while seeking, and ends a header or a body with `IncompletePacket` (R126). -/
theorem decTimeout_cases (d : DecState) :
    decTimeout d = (.seekPreamble1, []) ∨
    (decTimeout d = (.seekPreamble1, [.incompletePacket]) ∧ (d.mode = .readHeader ∨ d.mode = .readBody)) := by
  cases d with
  | seekPreamble1 => exact .inl rfl
  | seekPreamble2 => exact .inl rfl
  | readHeader hdr => exact .inr ⟨rfl, .inl rfl⟩
  | readBody messageId length body => exact .inr ⟨rfl, .inr rfl⟩

/-- The step on one item is silent, or it ends the frame: with the body's outcome on a byte, with `IncompletePacket` on a
timeout. -/
theorem decStep_item_cases {x : Input} (hx : DecoderItem x) (d : DecState) :
    (decStep d x).2 = [] ∨
    (∃ e, decStep d x = (.seekPreamble1, [e]) ∧ e ≠ .incompletePacket ∧ (∃ b, x = .byte b) ∧ d.mode = .readBody) ∨
    (decStep d x = (.seekPreamble1, [.incompletePacket]) ∧ x = .timeout ∧
      (d.mode = .readHeader ∨ d.mode = .readBody)) := by
  obtain rfl | rfl | ⟨b, rfl⟩ := hx
  · obtain hsilent | ⟨hevent, hmode⟩ := decTimeout_cases d
    · exact .inl (congrArg Prod.snd hsilent)
    · exact .inr (.inr ⟨hevent, rfl, hmode⟩)
  · exact .inl rfl
  · by_cases hmode : d.mode = .readBody
    case neg => exact .inl (decFeed_snd_of_not_readBody hmode b)
    obtain ⟨messageId, length, body, rfl⟩ := mode_eq_readBody_iff.mp hmode
    obtain hmore | ⟨e, hlast, hid⟩ := decFeed_readBody_cases messageId length body b
    · exact .inl (congrArg Prod.snd hmore)
    · exact .inr (.inl ⟨e, hlast, ne_incompletePacket_of_messageId hid, ⟨b, rfl⟩, rfl⟩)

/-! ## Five bytes between two outcomes (R131, R138) -/

/-- The offset in its frame (R60) of the byte the decoder expects next; every offset after the header counts as 4. -/
def DecState.nextOffset : DecState → Nat
  | .seekPreamble1 => 0
  | .seekPreamble2 => 1
  | .readHeader [] => 2
  | .readHeader (_ :: _) => 3
  | .readBody _ _ _ => 4

theorem DecState.nextOffset_le (d : DecState) : d.nextOffset ≤ 4 := by
  match d with
  | .seekPreamble1 | .seekPreamble2 | .readHeader [] | .readHeader (_ :: _) | .readBody _ _ _ => simp [nextOffset]

/-- A byte in `SeekPreamble1` moves on by at most one offset. -/
theorem decSeek1_nextOffset_le (b : Byte) : (decSeek1 b).1.nextOffset ≤ 1 := by
  obtain h | h := decSeek1_seeking b <;> simp [h, DecState.nextOffset]

/-- A byte moves the decoder on by at most one offset, and an event takes it back from offset 4 to offset 0. -/
theorem decFeed_nextOffset (d : DecState) (b : Byte) :
    5 * (decFeed d b).2.length + (decFeed d b).1.nextOffset ≤ d.nextOffset + 1 := by
  match d with
  | .seekPreamble1 => simpa [DecState.nextOffset] using decSeek1_nextOffset_le b
  | .seekPreamble2 =>
    rw [decFeed_seekPreamble2]
    split
    · exact Nat.le_refl 2
    · rw [decSeek1_snd]
      exact Nat.le_trans (Nat.zero_add _).le ((decSeek1_nextOffset_le b).trans (Nat.le_succ 1))
  | .readHeader [] => exact Nat.le_refl 3
  | .readHeader (_ :: _) => exact Nat.le_refl 4
  | .readBody messageId length body =>
    obtain hmore | ⟨e, hlast, -⟩ := decFeed_readBody_cases messageId length body b
    · rw [hmore]; exact Nat.le_succ 4
    · rw [hlast]; exact Nat.le_refl 5

/-- Each event of a feed call uses up five offsets. -/
theorem decFeedn_nextOffset (d : DecState) (bs : List Byte) :
    5 * (decFeedn d bs).2.length + (decFeedn d bs).1.nextOffset ≤ d.nextOffset + bs.length := by
  induction bs generalizing d with
  | nil => simp
  | cons b t ih =>
    have hbyte := decFeed_nextOffset d b
    have htail := ih (decFeed d b).1
    simp only [decFeedn_cons, List.length_append, List.length_cons]
    omega

/-- The outcomes of completed bodies among events: all but `IncompletePacket`. -/
def outcomeCount (es : List Event) : Nat := es.countP (· ≠ .incompletePacket)

/-- How many of the decoder's items are bytes. -/
def byteCount (xs : List Input) : Nat := (xs.filter fun x => x ≠ .timeout ∧ x ≠ .reset).length

theorem byteCount_cons (x : Input) (xs : List Input) : byteCount (x :: xs) = byteCount [x] + byteCount xs := by
  simp only [byteCount, ← List.countP_eq_length_filter, ← List.countP_append, List.singleton_append]

theorem outcomeCount_append (es es' : List Event) : outcomeCount (es ++ es') = outcomeCount es + outcomeCount es' :=
  List.countP_append

/-- A timeout gives no outcome. -/
theorem outcomeCount_decTimeout (d : DecState) : outcomeCount (decTimeout d).2 = 0 := by
  obtain h | ⟨h, -⟩ := decTimeout_cases d <;> rw [h] <;> rfl

/-- An outcome uses up five offsets, and only a byte moves the decoder on. -/
theorem decStep_nextOffset {x : Input} (hx : DecoderItem x) (d : DecState) :
    5 * outcomeCount (decStep d x).2 + (decStep d x).1.nextOffset ≤ d.nextOffset + byteCount [x] := by
  obtain rfl | rfl | ⟨b, rfl⟩ := hx
  · rw [decStep, outcomeCount_decTimeout, decTimeout_fst]; exact Nat.zero_le _
  · exact Nat.zero_le _
  · have hbyte := decFeed_nextOffset d b
    have hle : outcomeCount (decFeed d b).2 ≤ (decFeed d b).2.length := List.countP_le_length
    have hone : byteCount [.byte b] = 1 := by simp [byteCount]
    rw [decStep, hone]; omega

/-- Along a run over decoder items each outcome uses up five offsets, and only the bytes move the decoder on. -/
theorem run_items_nextOffset {xs : List Input} {s t : State} (hxs : s.inputs = xs) (hitems : ∀ x ∈ xs, DecoderItem x)
    (hrun : run xs.length s = .next t) :
    ∃ es, t.events = s.events ++ es ∧ 5 * outcomeCount es + t.dec.nextOffset ≤ s.dec.nextOffset + byteCount xs := by
  induction xs generalizing s with
  | nil => cases hrun; exact ⟨[], by simp, Nat.le_of_eq (Nat.zero_add _)⟩
  | cons x rest ih =>
    obtain ⟨hx, hrest⟩ := List.forall_mem_cons.mp hitems
    rw [List.length_cons, run_succ_of_next (step_eq_effect hxs), effect_eq_deliver hx.agent_eq] at hrun
    obtain ⟨es, hevents, htail⟩ := ih rfl hrest hrun
    have hitem := decStep_nextOffset hx s.dec
    refine ⟨(decStep s.dec x).2 ++ es, by simpa using hevents, ?_⟩
    simp only [State.deliver_dec, State.setInputs_dec] at htail
    rw [outcomeCount_append, byteCount_cons]; omega

/-! ## Deliveries of bytes (R131, R135, R144) -/

/-- A single byte and a chunk feed the decoder the bytes they deliver. -/
theorem effect_of_delivery {x : Input} (hx : (∃ b, x = .byte b) ∨ ∃ bs, x = .chunk bs) (s : State) :
    s.effect x = s.deliver (decFeedn s.dec x.delivered) := by
  obtain ⟨b, rfl⟩ | ⟨bs, rfl⟩ := hx
  · rw [Input.delivered, decFeedn_singleton]; rfl
  · rfl

/-- A run over single bytes and chunks is one feed call of all their bytes. -/
theorem run_deliveries {xs : List Input} (hxs : ∀ x ∈ xs, (∃ b, x = .byte b) ∨ ∃ bs, x = .chunk bs)
    (rest : List Input) (s : State) :
    run xs.length (s.setInputs (xs ++ rest)) =
      .next ((s.setInputs rest).deliver (decFeedn s.dec (xs.flatMap Input.delivered))) := by
  induction xs generalizing s with
  | nil => exact congrArg Host.Outcome.next (State.emit_nil (s.setInputs rest)).symm
  | cons x xs ih =>
    obtain ⟨hx, hxs⟩ := List.forall_mem_cons.mp hxs
    rw [List.length_cons, run_succ_of_next (step_eq_effect rfl), effect_of_delivery hx]
    refine (ih hxs (s.deliver (decFeedn s.dec x.delivered))).trans (congrArg Host.Outcome.next ?_)
    rw [List.flatMap_cons, decFeedn_append]
    exact State.deliver_deliver (s.setInputs rest) _ _

theorem bulkSource_delivered (chunks : List (List Byte)) :
    (bulkSource chunks).flatMap Input.delivered = chunks.flatten := by
  rw [bulkSource, List.flatMap_map, List.flatMap_def]
  exact congrArg List.flatten (List.map_id chunks)

theorem perByteSource_delivered (chunks : List (List Byte)) :
    (perByteSource chunks).flatMap Input.delivered = chunks.flatten := by
  rw [perByteSource, List.flatMap_map]
  exact List.flatMap_singleton' _

/-! ## Noise (R136) -/

/-- The byte a seeking decoder remembers (R113). -/
def DecState.remembered : DecState → List Byte
  | .seekPreamble1 => []
  | .seekPreamble2 => [Config.preamble1]
  | .readHeader _ => []
  | .readBody _ _ _ => []

/-- Only 0x55 begins a preamble pair. -/
theorem pair_infix_cons {b : Byte} {t : List Byte} (h : b ≠ 0x55) :
    [0x55, 0xAA] <:+: b :: t ↔ [0x55, 0xAA] <:+: t := by
  rw [List.infix_cons_iff, or_iff_right]
  exact fun hpre => h (List.cons_prefix_cons.mp hpre).1.symm

/-- Only 0xAA completes a preamble pair. -/
theorem pair_infix_cons_cons {b : Byte} {t : List Byte} (h : b ≠ 0xAA) :
    [0x55, 0xAA] <:+: 0x55 :: b :: t ↔ [0x55, 0xAA] <:+: b :: t := by
  rw [List.infix_cons_iff, or_iff_right]
  exact fun hpre => h (List.cons_prefix_cons.mp (List.cons_prefix_cons.mp hpre).2).1.symm

/-- A byte while seeking opens a header, completing a preamble pair, or the decoder goes on seeking, and it remembers what a
later byte can complete to a pair. -/
theorem decFeed_seeking {d : DecState} (hd : d.Seeking) (b : Byte) (t : List Byte) :
    (decFeed d b = (.readHeader [], []) ∧ [0x55, 0xAA] <:+: d.remembered ++ b :: t) ∨
    ∃ d', d'.Seeking ∧ decFeed d b = (d', []) ∧
      ([0x55, 0xAA] <:+: d.remembered ++ b :: t ↔ [0x55, 0xAA] <:+: d'.remembered ++ t) := by
  have hseek (h2 : d = .seekPreamble2 → b ≠ Config.preamble2) : decFeed d b = decSeek1 b := by
    obtain rfl | rfl := hd
    · rfl
    · rw [decFeed_seekPreamble2, if_neg (h2 rfl)]
  by_cases hopen : d = .seekPreamble2 ∧ b = Config.preamble2
  · obtain ⟨rfl, rfl⟩ := hopen
    exact .inl ⟨rfl, ⟨[], t, rfl⟩⟩
  rw [hseek (not_and.mp hopen)]
  by_cases h1 : b = Config.preamble1
  · refine .inr ⟨.seekPreamble2, .inr rfl, if_pos h1, ?_⟩
    subst h1
    obtain rfl | rfl := hd
    · rfl
    · exact pair_infix_cons_cons (by decide)
  · refine .inr ⟨.seekPreamble1, .inl rfl, if_neg h1, ?_⟩
    obtain rfl | rfl := hd
    · exact pair_infix_cons h1
    · exact (pair_infix_cons_cons fun h2 => hopen ⟨rfl, h2⟩).trans (pair_infix_cons h1)

/-- Bytes met while seeking hold no preamble pair and pass silently, or they hold one, and the first opens a header. -/
theorem decFeedn_seeking {d : DecState} (hd : d.Seeking) (bs : List Byte) :
    (¬ [0x55, 0xAA] <:+: d.remembered ++ bs ∧ ∃ d', d'.Seeking ∧ decFeedn d bs = (d', [])) ∨
    ([0x55, 0xAA] <:+: d.remembered ++ bs ∧
      ∃ front back, bs = front ++ back ∧ decFeedn d front = (.readHeader [], [])) := by
  induction bs generalizing d with
  | nil =>
    refine .inl ⟨?_, d, hd, rfl⟩
    obtain rfl | rfl := hd <;> decide
  | cons b t ih =>
    obtain ⟨hopen, hpair⟩ | ⟨d', hd', hstep, hiff⟩ := decFeed_seeking hd b t
    · exact .inr ⟨hpair, [b], t, rfl, by rw [decFeedn_singleton, hopen]⟩
    · rw [hiff]
      obtain ⟨hno, d'', hd'', hfeed⟩ | ⟨hpair, front, back, rfl, hfeed⟩ := ih hd'
      · exact .inl ⟨hno, d'', hd'', by simp [decFeedn_cons, hstep, hfeed]⟩
      · exact .inr ⟨hpair, b :: front, back, rfl, by simp [decFeedn_cons, hstep, hfeed]⟩

/-- The first event that a body leads to carries the body's `message_id`. -/
theorem decFeedn_readBody_head (messageId length : Byte) (body bs : List Byte) :
    ∀ e ∈ (decFeedn (.readBody messageId length body) bs).2.head?, eventMessageId e = some messageId := by
  induction bs generalizing body with
  | nil => simp
  | cons b t ih =>
    obtain hmore | ⟨e, hlast, hid⟩ := decFeed_readBody_cases messageId length body b
    · simpa [decFeedn_cons, hmore] using ih (body ++ [b])
    · simpa [decFeedn_cons, hlast] using hid

/-- The two bytes of a header open its body. -/
theorem decFeedn_header (messageId length : Byte) (bs : List Byte) :
    decFeedn (.readHeader []) (messageId :: length :: bs) = decFeedn (.readBody messageId length []) bs := rfl

/-- The first event that an empty header leads to carries the byte that comes first. -/
theorem decFeedn_readHeader_head (bs : List Byte) :
    ∀ e ∈ (decFeedn (.readHeader []) bs).2.head?, eventMessageId e = bs.head? := by
  match bs with
  | [] => simp
  | [_] => simp [decFeed]
  | messageId :: length :: t => rw [decFeedn_header]; exact decFeedn_readBody_head messageId length [] t

/-- XOR with a pattern that is not zero changes a byte. -/
theorem xor_ne_self {a e : Byte} (he : e ≠ 0) : a ^^^ e ≠ a :=
  fun h => he (by simpa using h)

/-- Where noise has opened a header, some message after the rest of the noise is lost: one whose `message_id` is not the
byte the header begins with, which is the next byte of the noise or the frame's own 0x55. -/
theorem exists_encodeFrame_lost {front : List Byte} (h : decFeedn .seekPreamble1 front = (.readHeader [], []))
    (back : List Byte) :
    ∃ messageId payload f, encodeFrame messageId payload = .ok f ∧
      decFeedn .seekPreamble1 (front ++ back ++ f) ≠ (.seekPreamble1, [.frame messageId payload]) := by
  obtain ⟨other, hother⟩ : ∃ id, id ≠ back.head?.getD Config.preamble1 := ⟨_, xor_ne_self (e := 1) (by decide)⟩
  refine ⟨other, [], _, encodeFrame_of_le (Nat.zero_le 64), fun hfeed => hother ?_⟩
  rw [List.append_assoc, decFeedn_append, h, List.nil_append] at hfeed
  obtain ⟨-, hevents⟩ := Prod.mk.inj hfeed
  have hhead := decFeedn_readHeader_head _ _ (List.head?_eq_some_iff.mpr ⟨[], hevents⟩)
  cases back with
  | nil => exact Option.some.inj hhead
  | cons b t => exact Option.some.inj hhead

/-! ## One changed byte of a frame (R137) -/

/-- A change of one byte changes the checksum (R90). -/
theorem checksum_set_ne {m : List Byte} {k : Nat} {b : Byte} (hk : k < m.length) (hb : b ≠ m[k]) :
    checksum (m.set k b) ≠ checksum m := by
  obtain ⟨front, back, hm, -, hset⟩ := List.exists_of_set (a' := b) hk
  obtain ⟨-, -, -, -, hchange⟩ := Proofs.oneByteChangeChangesTheChecksum
  rw [hset]
  intro heq
  exact hchange front back b m[k] hb (heq.trans (congrArg checksum hm))

section Changes

variable {messageId length check b : Byte} {payload : List Byte}

theorem frameBytes_getD_payload {j : Nat} (hj : j < payload.length) :
    (frameBytes messageId length payload check).getD (4 + j) 0 = payload[j] := by
  simp [frameBytes, Nat.add_comm 4 j, List.getElem?_append_left hj, hj]

theorem frameBytes_getD_check : (frameBytes messageId length payload check).getD (4 + payload.length) 0 = check := by
  rw [List.getD_eq_getElem?_getD, frameBytes_getElem?_check]; rfl

theorem frameBytes_set_payload {j : Nat} (hj : j < payload.length) :
    (frameBytes messageId length payload check).set (4 + j) b = frameBytes messageId length (payload.set j b) check := by
  simp [frameBytes, Nat.add_comm 4 j, hj]

theorem frameBytes_set_check :
    (frameBytes messageId length payload check).set (4 + payload.length) b = frameBytes messageId length payload b := by
  simp [frameBytes, Nat.add_comm 4 payload.length]

end Changes

section ChangedFrame

variable {messageId length check e : Byte} {payload : List Byte}

/-- A frame whose checksum byte is not the recomputed one ends in one `ChecksumMismatch`. -/
theorem decFeedn_frameBytes_mismatch (h : payload.length = length.toNat)
    (hcheck : check ≠ checksum (coverage messageId length payload)) :
    ∃ expected received, expected ≠ received ∧ decFeedn .seekPreamble1 (frameBytes messageId length payload check) =
      (.seekPreamble1, [.checksumMismatch messageId length expected received]) :=
  ⟨_, _, hcheck.symm, by rw [decFeedn_frameBytes (.inl rfl) h, if_neg hcheck]⟩

/-- A well-formed frame changed in `message_id`, the payload or the checksum is a frame whose checksum differs. -/
theorem decFeedn_changed_field (h : payload.length = length.toNat)
    (hcheck : frameWellFormed messageId length payload check) (he : e ≠ 0) {k : Nat}
    (hk : k = 2 ∨ (4 ≤ k ∧ k ≤ 4 + payload.length)) :
    ∃ expected received, expected ≠ received ∧
      decFeedn .seekPreamble1 ((frameBytes messageId length payload check).set k
          ((frameBytes messageId length payload check).getD k 0 ^^^ e)) =
        (.seekPreamble1, [.checksumMismatch (if k = 2 then messageId ^^^ e else messageId) length expected received]) := by
  obtain rfl | ⟨hk4, hkn⟩ := hk
  · refine decFeedn_frameBytes_mismatch h (hcheck ▸ Ne.symm ?_)
    exact checksum_set_ne (m := coverage messageId length payload) (k := 0) (Nat.succ_pos _) (xor_ne_self he)
  rw [if_neg (by omega)]
  obtain ⟨j, rfl⟩ := Nat.exists_eq_add_of_le hk4
  obtain hj | rfl := Nat.lt_or_eq_of_le (Nat.le_of_add_le_add_left hkn)
  · rw [frameBytes_getD_payload hj, frameBytes_set_payload hj]
    refine decFeedn_frameBytes_mismatch (by simpa using h) (hcheck ▸ Ne.symm ?_)
    exact checksum_set_ne (m := coverage messageId length payload) (k := j + 2) (Nat.add_lt_add_right hj 2)
      (xor_ne_self he)
  · rw [frameBytes_getD_check, frameBytes_set_check]
    exact decFeedn_frameBytes_mismatch h (hcheck ▸ xor_ne_self he)

/-- A frame that announces more payload bytes than it carries leaves its body open. -/
theorem decFeedn_frameBytes_open (h : payload.length < length.toNat) :
    decFeedn .seekPreamble1 (frameBytes messageId length payload check) =
      (.readBody messageId length (payload ++ [check]), []) :=
  (decFeedn_open (.inl rfl) messageId length (payload ++ [check])).trans (decFeedn_body_more (by simpa using h))

/-- A frame that announces fewer payload bytes than it carries begins with a frame of that length, whose checksum byte is
the payload byte that stands there. -/
theorem take_frameBytes (h : length.toNat < payload.length) :
    (frameBytes messageId length payload check).take (5 + length.toNat) =
      frameBytes messageId length (payload.take length.toNat) payload[length.toNat] := by
  simp [frameBytes, Nat.add_comm 5 length.toNat, List.take_append_of_le_length h]

/-- A frame that announces fewer payload bytes than it carries ends early, with the outcome of the frame it begins with. -/
theorem decFeedn_take_frameBytes (h : length.toNat < payload.length) :
    ∃ event, event ≠ .incompletePacket ∧
      decFeedn .seekPreamble1 ((frameBytes messageId length payload check).take (5 + length.toNat)) =
        (.seekPreamble1, [event]) := by
  rw [take_frameBytes h, decFeedn_frameBytes (.inl rfl) (by simpa using h.le)]
  refine ⟨_, ?_, rfl⟩
  split <;> simp

end ChangedFrame

/-- Bytes without a preamble pair are silent at a fresh decoder. -/
theorem decFeedn_no_pair {bs : List Byte} (h : ¬ [0x55, 0xAA] <:+: bs) : (decFeedn .seekPreamble1 bs).2 = [] := by
  obtain ⟨-, d, -, hfeed⟩ | ⟨hpair, -⟩ := decFeedn_seeking (d := .seekPreamble1) (.inl rfl) bs
  · rw [hfeed]
  · exact absurd hpair h

end Sys2Proof.Machine

/-! ## The obligations -/

namespace Sys2Proof.Proofs

open Sys2Proof.Machine

/-- Settles O50: a seeking decoder reads the frame back; an open header or body takes the frame's five bytes into a body. -/
theorem roundTrip : Obligations.RoundTrip := by
  obtain ⟨-, -, hzero, -⟩ := leadingZerosDoNotCount
  refine ⟨fun messageId payload s hle hd => ?_, ⟨0x00, [], _, [], hzero, fun h => ?_⟩,
    ⟨0x00, 0x00, 0x05, [], _, [], hzero, Nat.zero_le _, fun h => ?_⟩⟩
  · obtain ⟨f, hok⟩ : ∃ f, encodeFrame messageId payload = .ok f := ⟨_, encodeFrame_of_le hle⟩
    refine ⟨f, ?_, exec_raise rfl rfl rfl (decFeedn_encodeFrame hd hok)⟩
    rw [exec_encEncode, hok]; rfl
  · rw [decFeedn_header, decFeedn_body_more (by simp)] at h
    cases h
  · rw [decFeedn_body_more (by simp)] at h
    cases h

/-- Settles O25: the feed call is a fold, and an event uses up the five offsets of a frame. -/
theorem feednStepsEachByteInOrder : Obligations.FeednStepsEachByteInOrder := by
  refine ⟨fun s => ?_, fun b t s => ?_, fun _ _ => rfl, decFeedn_append, fun d bs => ?_⟩
  · exact (exec_silent rfl rfl rfl rfl).trans (congrArg Host.Outcome.next (State.setDec_of_eq rfl))
  · exact congrArg Host.Outcome.next (State.deliver_deliver s (decFeed s.dec b) _).symm
  · have hcount := decFeedn_nextOffset d bs
    have hstart := d.nextOffset_le
    omega

/-- Settles O35: an idle step and the effect of an input are both next states, and there is no fault. -/
theorem everyInputIsTaken : Obligations.EveryInputIsTaken := by
  refine ⟨step_total, fun _ r => (nomatch r), fun s r h => ?_⟩
  obtain ⟨t, ht⟩ := step_total s
  cases ht.symm.trans h

/-- Settles O36: the row an input selects has the effect of the step function. -/
theorem rowsAgreeWithTheStepFunctions : Obligations.RowsAgreeWithTheStepFunctions :=
  ⟨fun _ _ _ hx => step_eq_effect hx, fun _ _ hx => step_eq_effect hx⟩

/-- Settles O43: by the three outcomes of one item; an outcome needs the five offsets of a frame, and fewer bytes do not
reach them. -/
theorem atMostOneEventPerStep : Obligations.AtMostOneEventPerStep := by
  refine ⟨fun s t x rest hx hitem hstep => ?_, fun s t xs hd hxs hitems hcount hrun => ?_⟩
  · rw [step_eq_effect hx, effect_eq_deliver hitem.agent_eq] at hstep
    cases hstep
    refine ⟨(decStep s.dec x).2, rfl, ?_⟩
    simp only [State.deliver_dec, State.setInputs_dec]
    obtain hsilent | ⟨e, hevent, hne, hbyte, hmode⟩ | ⟨hevent, hkind, hmode⟩ := decStep_item_cases hitem s.dec
    · simp [hsilent]
    · simp [hevent, hne, hbyte, hmode]
    · subst hkind
      simp [hevent, hmode]
  · obtain ⟨es, hevents, hle⟩ := run_items_nextOffset hxs hitems hrun
    have hzero : outcomeCount es = 0 := by
      have hbytes : byteCount xs < 5 := hcount
      have hstart : s.dec.nextOffset = 0 := by rw [hd]; rfl
      omega
    refine ⟨es, hevents, fun e he => ?_⟩
    simpa using List.countP_eq_zero.mp hzero e he

/-- Settles O47: the four bytes open the body, and it takes the rest. -/
theorem openBodyAbsorbsSilently : Obligations.OpenBodyAbsorbsSilently := by
  intro messageId length bs hle
  calc decFeedn .seekPreamble1 ([0x55, 0xAA, messageId, length] ++ bs)
      = decFeedn (.readBody messageId length []) bs := decFeedn_open (.inl rfl) messageId length bs
    _ = (.readBody messageId length bs, []) := decFeedn_body_more (by simpa using hle)

/-- Settles O49: any run over deliveries is the feed call of their bytes; a timeout in a header discards it. -/
theorem chunkBoundariesMakeNoDifference : Obligations.ChunkBoundariesMakeNoDifference := by
  refine ⟨fun s chunks rest => ?_, ?_⟩
  · have hwhole : run 1 (s.setInputs (.chunk chunks.flatten :: rest)) =
        .next ((s.setInputs rest).deliver (decFeedn s.dec chunks.flatten)) := rfl
    have hbulk := run_deliveries (xs := bulkSource chunks) (List.forall_mem_map.mpr fun bs _ => .inr ⟨bs, rfl⟩) rest s
    have hbytes := run_deliveries (xs := perByteSource chunks) (List.forall_mem_map.mpr fun b _ => .inl ⟨b, rfl⟩) rest s
    rw [bulkSource_delivered, bulkSource, List.length_map] at hbulk
    rw [perByteSource_delivered, perByteSource, List.length_map] at hbytes
    exact ⟨hbulk.trans hwhole.symm, hbytes.trans hwhole.symm⟩
  · refine ⟨State.reset, [0x55], [0xAA], fun h => ?_⟩
    have hdec : DecState.seekPreamble1 = .readHeader [] := congrArg State.dec (Host.Outcome.next.inj h)
    cases hdec

/-- Settles O51: noise without a pair leaves the decoder seeking, and noise with one opens a header that takes the
`message_id` of the next event from the noise or the frame's preamble. -/
theorem resynchronisationIsExact : Obligations.ResynchronisationIsExact := by
  intro noise
  obtain ⟨hno, d, hd, hnoise⟩ | ⟨hpair, front, back, rfl, hopen⟩ :=
    decFeedn_seeking (d := .seekPreamble1) (.inl rfl) noise
  · refine iff_of_true (fun messageId payload f hok => ?_) hno
    simp [decFeedn_append, hnoise, decFeedn_encodeFrame hd hok]
  · obtain ⟨messageId, payload, f, hok, hlost⟩ := exists_encodeFrame_lost hopen back
    exact iff_of_false (fun h => hlost (h messageId payload f hok)) (not_not_intro hpair)

/-- Settles O52: a change outside the preamble is again a frame, with one field changed, and its `length` byte decides how
far the decoder reads; a changed preamble leaves noise. -/
theorem singleByteCorruption : Obligations.SingleByteCorruption := by
  refine ⟨fun messageId e payload f hok he => ?_, by decide +kernel, by decide +kernel⟩
  obtain ⟨hle, rfl⟩ := encodeFrame_eq_ok_iff.mp hok
  have hlen : payload.length = (lengthByte payload).toNat := (lengthByte_toNat (by omega)).symm
  refine ⟨fun k hk => ?_, fun hlonger => ?_, fun hshorter => ?_, fun k _ hno => ?_⟩
  · exact decFeedn_changed_field hlen rfl he hk
  · exact ⟨_, decFeedn_frameBytes_open hlonger, rfl⟩
  · exact decFeedn_take_frameBytes hshorter
  · exact decFeedn_no_pair hno

/-- Settles O15: each row is the decoder step of its byte. -/
theorem seekPreamble1Rows : Obligations.SeekPreamble1Rows := by
  refine fun s hd => ⟨exec_silent hd rfl rfl rfl, fun b hb => ?_⟩
  rw [exec_silent hd rfl (applies_decFeedS1Other_iff.mpr ⟨rfl, hb⟩) (if_neg hb), State.setDec_of_eq hd]

/-- Settles O16: each row is the decoder step of its byte. -/
theorem seekPreamble2Rows : Obligations.SeekPreamble2Rows := by
  refine fun s hd => ⟨exec_silent hd rfl rfl rfl, exec_silent hd rfl rfl rfl, fun b h2 h1 => ?_⟩
  exact exec_silent hd rfl (applies_decFeedS2Other_iff.mpr ⟨rfl, h2, h1⟩) ((if_neg h2).trans (if_neg h1))

/-- Settles O17: both seek modes hand such a byte to one function, which differs from discarding on 0x55 alone; of the
doubled 0x55 the second one begins the frame. -/
theorem reexaminationMattersOnOneByte : Obligations.ReexaminationMattersOnOneByte := by
  refine ⟨fun b h2 => ?_, fun b _ => ?_, ?_⟩
  · rw [decFeed_seekPreamble2, if_neg h2]; rfl
  · by_cases h1 : b = Config.preamble1 <;> simp [resyncWith, decSeek1, h1]
  · have hencode : encodeFrame 0x01 [0x68, 0x69] = .ok [0x55, 0xAA, 0x01, 0x02, 0x68, 0x69, 0x85] := by decide +kernel
    have hread : decFeedn .seekPreamble2 [0x55, 0xAA, 0x01, 0x02, 0x68, 0x69, 0x85] =
        (.seekPreamble1, [.frame 0x01 [0x68, 0x69]]) := decFeedn_encodeFrame (.inr rfl) hencode
    have hfirst : decFeed .seekPreamble1 0x55 = (.seekPreamble2, []) := rfl
    rw [decFeedn_cons, hfirst, hread, List.nil_append]

/-- Settles O18: each row is the decoder step of its byte, and `body_size` does not wrap. -/
theorem headerRows : Obligations.HeaderRows :=
  ⟨fun _ _ hd => exec_silent hd rfl rfl rfl,
    fun _ b _ hd => ⟨exec_silent hd rfl rfl rfl, congrArg some (bodySize_toNat b)⟩⟩

/-- Settles O19: the body is not complete with this byte. -/
theorem bodyMoreAppends : Obligations.BodyMoreAppends := by
  intro messageId length b body s hd hlt
  exact exec_silent hd rfl (applies_bodyMore hlt) (decFeed_more hlt)

/-- Settles O20: the byte completes the body and is the recomputed checksum. -/
theorem matchingBodyEmitsTheFrame : Obligations.MatchingBodyEmitsTheFrame := by
  intro messageId length b body s hd hlen hcheck
  exact exec_raise hd rfl (applies_bodyEmit hlen hcheck) (decFeed_matching hlen hcheck)

/-- Settles O21: the byte completes the body and is not the recomputed checksum. -/
theorem differingBodyRaisesChecksumMismatch : Obligations.DifferingBodyRaisesChecksumMismatch := by
  intro messageId length b body s hd hlen hcheck
  exact exec_raise hd rfl (applies_bodyReject hlen hcheck) (decFeed_differing hlen hcheck)

/-- Settles O22: each row is the decoder's timeout step. -/
theorem timeoutWhileSeekingIsSilent : Obligations.TimeoutWhileSeekingIsSilent := by
  refine fun s => ⟨fun hd => ?_, fun hd => exec_silent hd rfl rfl rfl⟩
  rw [exec_silent hd rfl rfl rfl, State.setDec_of_eq hd]

/-- Settles O23: each row is the decoder's timeout step, which raises the event. -/
theorem timeoutInAFrameRaisesIncompletePacket : Obligations.TimeoutInAFrameRaisesIncompletePacket :=
  fun _ => ⟨fun _ hd => exec_raise hd rfl rfl rfl, fun _ _ _ hd => exec_raise hd rfl rfl rfl⟩

/-- Settles O24: the row puts the decoder in its reset state. -/
theorem resetMakesTheDecoderFresh : Obligations.ResetMakesTheDecoderFresh :=
  fun _ => ⟨exec_silent rfl rfl rfl rfl, rfl⟩

end Sys2Proof.Proofs

/-! SUPPORT. Proofs of the family 43_transport_and_host: a round of the byte source's loop, and what the caller writes of a
response (43_transport_and_host.md R140 to R143). -/

/-! ## A round of the byte source (R142, R143) -/

namespace Sys2Proof.Machine

theorem elapsed_onEmptyRead_iff (maxBytes : Nat) (chunk : List Byte) :
    elapsed .onEmptyRead maxBytes chunk = true ↔ chunk = [] := List.isEmpty_iff

theorem elapsed_onShortRead_iff (maxBytes : Nat) (chunk : List Byte) :
    elapsed .onShortRead maxBytes chunk = true ↔ chunk.length < maxBytes := decide_eq_true_iff

/-- A run whose oldest input is the decoder's goes on from that input's decoder step. -/
theorem run_succ_of_dec {x : Input} (hx : x.agent = .dec) (k : Nat) (rest : List Input) (s : State) :
    run (k + 1) (s.setInputs (x :: rest)) = run k ((s.deliver (decStep s.dec x)).setInputs rest) := by
  rw [run_succ_of_next (step_eq_effect rfl), effect_eq_deliver hx]; rfl

section Round

variable {policy : Config.TimeoutPolicy} {maxBytes : Nat} {chunk : List Byte}

theorem presentRead_of_elapsed (h : elapsed policy maxBytes chunk = true) :
    presentRead policy maxBytes chunk = [.chunk chunk, .timeout] := by
  rw [presentRead, if_pos h]

theorem presentRead_of_not_elapsed (h : ¬ elapsed policy maxBytes chunk = true) :
    presentRead policy maxBytes chunk = [.chunk chunk] := by
  rw [presentRead, if_neg h]

/-- A round whose wait elapsed feeds the chunk, and a timeout to the decoder that the chunk leads to. -/
theorem run_presentRead_of_elapsed (h : elapsed policy maxBytes chunk = true) (rest : List Input) (s : State) :
    run (presentRead policy maxBytes chunk).length (s.setInputs (presentRead policy maxBytes chunk ++ rest)) =
      .next (((s.deliver (decFeedn s.dec chunk)).deliver (decTimeout (decFeedn s.dec chunk).1)).setInputs rest) := by
  rw [presentRead_of_elapsed h]
  exact (run_succ_of_dec rfl 1 (.timeout :: rest) s).trans (run_succ_of_dec rfl 0 rest _)

/-- A round whose wait did not elapse feeds the chunk, and nothing else. -/
theorem run_presentRead_of_not_elapsed (h : ¬ elapsed policy maxBytes chunk = true) (rest : List Input) (s : State) :
    run (presentRead policy maxBytes chunk).length (s.setInputs (presentRead policy maxBytes chunk ++ rest)) =
      .next ((s.deliver (decFeedn s.dec chunk)).setInputs rest) := by
  rw [presentRead_of_not_elapsed h]
  exact run_succ_of_dec rfl 0 rest s

end Round

end Sys2Proof.Machine

/-! ## The obligations -/

namespace Sys2Proof.Proofs

open Sys2Proof.Machine

/-- Settles O53: a round is the decoder step of the chunk, followed by that of a timeout when the wait elapsed; whatever the
chunk led to, a timeout leaves the decoder in `SeekPreamble1`. -/
theorem byteSourceRound : Obligations.ByteSourceRound := by
  refine ⟨fun maxBytes chunk => ⟨elapsed_onEmptyRead_iff maxBytes chunk, elapsed_onShortRead_iff maxBytes chunk⟩,
    fun policy maxBytes chunk s rest => ?_⟩
  by_cases h : elapsed policy maxBytes chunk = true
  · rw [if_pos h, ← decTimeout_fst (decFeedn s.dec chunk).1]
    exact run_presentRead_of_elapsed h rest s
  · rw [if_neg h]
    exact run_presentRead_of_not_elapsed h rest s

/-- Settles O54: the caller writes the encoder's frame, which a fresh decoder reads back, or nothing for its error. -/
theorem writtenBytesDecode : Obligations.WrittenBytesDecode := by
  refine fun messageId payload => ⟨fun hgt => ?_, fun hle => ?_⟩
  · rw [encodeFrame_of_gt hgt]; rfl
  · obtain ⟨f, hok⟩ : ∃ f, encodeFrame messageId payload = .ok f := ⟨_, encodeFrame_of_le hle⟩
    exact ⟨f, congrArg bytesToWrite hok, decFeedn_encodeFrame (.inl rfl) hok⟩

end Sys2Proof.Proofs

/-! SUPPORT. Proofs of the family 60_exceptions: where the encoder's error comes from, what the step that raises an event
leaves unchanged, and that the decoder always recovers (60_exceptions.md R151 to R159). -/

/-! ## The encoder's error (R151) -/

namespace Sys2Proof.Machine

/-- The encoder fails exactly beyond the bound. -/
theorem encodeFrame_eq_err_iff {messageId : Byte} {payload : List Byte} :
    encodeFrame messageId payload = .err .payloadTooLarge ↔ 64 < payload.length := by
  by_cases h : 64 < payload.length
  · exact iff_of_true (encodeFrame_of_gt h) h
  · refine iff_of_false (fun herr => ?_) h
    rw [encodeFrame_of_le (Nat.le_of_not_lt h)] at herr
    cases herr

/-- ENC.ENCODE is the encoder's only operation (R67). -/
theorem eq_encEncode_of_agent {i : Instr} (h : i.agent = .enc) :
    ∃ messageId payload, i = .encEncode messageId payload := by
  cases i with
  | encEncode messageId payload => exact ⟨messageId, payload, rfl⟩
  | _ => cases h

/-- Only the encoder's operation answers a response. -/
theorem responses_eq_of_exec_next {i : Instr} {s t : State} (ha : i.agent ≠ .enc) (h : exec i s = .next t) :
    t.responses = s.responses := by
  obtain ⟨hframe, -⟩ := Proofs.agentsDoNotInteract
  obtain ⟨-, -, hresponses, -⟩ := hframe i s t h
  exact hresponses ha

/-! ## The step that raises an event (R157) -/

/-- The one event of a decoder item's step leaves the decoder in `SeekPreamble1`. -/
theorem decStep_of_event {x : Input} (hx : DecoderItem x) {d : DecState} {e : Event} (h : (decStep d x).2 = [e]) :
    decStep d x = (.seekPreamble1, [e]) := by
  obtain hsilent | ⟨e', hevent, -⟩ | ⟨hevent, -⟩ := decStep_item_cases hx d
  · cases hsilent.symm.trans h
  · rw [hevent] at h
    cases h; exact hevent
  · rw [hevent] at h
    cases h; exact hevent

/-! ## Two items in a row (R156) -/

/-- A run over two of the decoder's inputs is their decoder steps, one after the other. -/
theorem run_two_of_dec {x y : Input} {s : State} {d d' : DecState} {es es' : List Event} (hx : x.agent = .dec)
    (hy : y.agent = .dec) (hstep : decStep s.dec x = (d, es)) (hstep' : decStep d y = (d', es')) (rest : List Input) :
    run 2 (s.setInputs (x :: y :: rest)) = .next ((s.setInputs rest).deliver (d', es ++ es')) := by
  calc run 2 (s.setInputs (x :: y :: rest))
      = run 1 ((s.deliver (d, es)).setInputs (y :: rest)) := by rw [run_succ_of_dec hx, hstep]
    _ = .next (((s.deliver (d, es)).deliver (d', es')).setInputs rest) := by
        rw [run_succ_of_dec hy, State.deliver_dec, hstep']; rfl
    _ = .next ((s.setInputs rest).deliver (d', es ++ es')) := by rw [State.deliver_deliver]; rfl

/-- A byte in `SeekPreamble1` is silent, and the decoder remembers 0x55 only (R113, R114). -/
theorem decSeek1_eq (b : Byte) :
    decSeek1 b = (if b = Config.preamble1 then .seekPreamble2 else .seekPreamble1, []) := by
  unfold decSeek1; split <;> rfl

/-- A timeout or a reset leaves the decoder in `SeekPreamble1`, and only the timeout can have an event (R159). -/
theorem decStep_recover {x : Input} (hx : x = .timeout ∨ x = .reset) (d : DecState) :
    decStep d x = (.seekPreamble1, if x = .timeout then (decTimeout d).2 else []) := by
  obtain rfl | rfl := hx
  · exact Prod.ext (decTimeout_fst d) rfl
  · rfl

/-! ## Recovery by bytes alone (R159) -/

/-- A bound on the bytes that a decoder in a header or a body takes before it is back in `SeekPreamble1`: what is left of
the two header bytes, then of the 256 bytes of the longest body. -/
def DecState.bytesToRecover : DecState → Nat
  | .seekPreamble1 => 0
  | .seekPreamble2 => 0
  | .readHeader [] => 258
  | .readHeader (_ :: _) => 257
  | .readBody _ length body => length.toNat - body.length + 1

/-- In a header or a body the bound is between 1 and 258. -/
theorem DecState.bytesToRecover_bounds {d : DecState} (h : d.mode = .readHeader ∨ d.mode = .readBody) :
    0 < d.bytesToRecover ∧ d.bytesToRecover ≤ 258 := by
  match d, h with
  | .seekPreamble1, h | .seekPreamble2, h => cases h <;> contradiction
  | .readHeader [], _ | .readHeader (_ :: _), _ => simp [bytesToRecover]
  | .readBody _ length body, _ =>
    have := length.isLt
    simp only [bytesToRecover]; omega

/-- The byte that completes a body leaves the decoder in `SeekPreamble1`, whatever it is (R122, R123). -/
theorem decFeed_fst_of_complete {length : Byte} {body : List Byte} (h : length.toNat ≤ body.length)
    (messageId b : Byte) : (decFeed (.readBody messageId length body) b).1 = .seekPreamble1 := by
  rw [decFeed, if_pos ((bodyCompletes_iff length body).mpr h)]
  split <;> rfl

/-- A byte in a header or a body leads to `SeekPreamble1`, or on to a state that is closer to it. -/
theorem decFeed_bytesToRecover {d : DecState} (h : 0 < d.bytesToRecover) (b : Byte) :
    (decFeed d b).1 = .seekPreamble1 ∨
    (0 < (decFeed d b).1.bytesToRecover ∧ (decFeed d b).1.bytesToRecover < d.bytesToRecover) := by
  match d, h with
  | .readHeader [], _ => exact .inr ⟨Nat.succ_pos 256, Nat.lt_succ_self 257⟩
  | .readHeader (_ :: _), _ =>
    have := b.isLt
    exact .inr ⟨Nat.succ_pos _, show b.toNat - 0 + 1 < 257 by omega⟩
  | .readBody messageId length body, _ =>
    obtain hlt | hge := Nat.lt_or_ge body.length length.toNat
    · rw [decFeed_more hlt]
      simp only [DecState.bytesToRecover, List.length_append, List.length_singleton]
      omega
    · exact .inl (decFeed_fst_of_complete hge messageId b)

/-- Enough bytes of any values take a decoder in a header or a body back to `SeekPreamble1`. -/
theorem exists_decFeedn_recovered {d : DecState} {bs : List Byte} (hpos : 0 < d.bytesToRecover)
    (hle : d.bytesToRecover ≤ bs.length) :
    ∃ k, 1 ≤ k ∧ k ≤ bs.length ∧ (decFeedn d (bs.take k)).1 = .seekPreamble1 := by
  induction bs generalizing d with
  | nil => exact absurd hle (Nat.not_le_of_gt hpos)
  | cons b t ih =>
    obtain hback | ⟨hpos', hlt⟩ := decFeed_bytesToRecover hpos b
    · exact ⟨1, Nat.le_refl 1, Nat.succ_pos _, hback⟩
    · obtain ⟨k, -, hk, hback⟩ := ih hpos' (Nat.le_of_lt_succ (hlt.trans_le hle))
      exact ⟨k + 1, Nat.succ_pos k, Nat.succ_le_succ hk, hback⟩

end Sys2Proof.Machine

/-! ## The obligations -/

namespace Sys2Proof.Proofs

open Sys2Proof.Machine

/-- Settles O13: ENC.ENCODE answers the encoder's function, and no other operation answers a response. -/
theorem payloadTooLargeIsTheEncodersAlone : Obligations.PayloadTooLargeIsTheEncodersAlone := by
  intro i s t h
  by_cases ha : i.agent = .enc
  · obtain ⟨messageId, payload, rfl⟩ := eq_encEncode_of_agent ha
    rw [exec_encEncode] at h
    cases h
    exact ⟨by simp [encodeFrame_eq_err_iff], fun _ => rfl⟩
  · have hnone : ¬ t.responses = s.responses ++ [.err .payloadTooLarge] := by
      simp [responses_eq_of_exec_next ha h]
    refine ⟨iff_of_false hnone ?_, fun herr => absurd herr hnone⟩
    rintro ⟨messageId, payload, rfl, -⟩
    exact ha rfl

/-- Settles O44: a decoder item's step with an event raises it, and the encoder's error is a response only. -/
theorem errorEntryChangesNothingElse : Obligations.ErrorEntryChangesNothingElse := by
  refine ⟨fun s t x rest e hx hitem hstep hevents => ?_, fun s messageId payload rest hx hgt => ?_⟩
  · rw [step_eq_effect hx, effect_eq_deliver hitem.agent_eq] at hstep
    cases hstep
    rw [decStep_of_event hitem (List.append_cancel_left hevents)]; rfl
  · rw [step_eq_effect hx, State.effect, encodeFrame_of_gt hgt]; rfl

/-- Settles O45: the completing byte decides the frame and a timeout is then silent; the timeout first discards the body. -/
theorem orderOfByteAndTimeoutDecides : Obligations.OrderOfByteAndTimeoutDecides := by
  intro s messageId length b body rest hd hlen
  have houtcome : decStep s.dec (.byte b) = (.seekPreamble1,
      [if checksum (coverage messageId length body) = b then .frame messageId body
       else .checksumMismatch messageId length (checksum (coverage messageId length body)) b]) := by
    rw [hd, decStep, decFeed_last hlen]
    simp only [eq_comm (a := b)]
  have htimeout : decStep s.dec .timeout = (.seekPreamble1, [.incompletePacket]) := by rw [hd]; rfl
  exact ⟨run_two_of_dec rfl rfl houtcome rfl rest, run_two_of_dec (y := .byte b) rfl rfl htimeout (decSeek1_eq b) rest⟩

/-- Settles O48: a timeout and a reset make the decoder fresh, and each byte of a header or a body brings it closer to
that. -/
theorem decoderAlwaysRecovers : Obligations.DecoderAlwaysRecovers := by
  refine ⟨decTimeout_fst, fun s messageId payload f x rest hok hx => ?_, fun d bs hmode hlen => ?_⟩
  · have hagent : x.agent = .dec := by obtain rfl | rfl := hx <;> rfl
    have hframe : decStep .seekPreamble1 (.chunk f) = (.seekPreamble1, [.frame messageId payload]) :=
      decFeedn_encodeFrame (.inl rfl) hok
    rw [List.append_assoc]
    exact run_two_of_dec hagent rfl (decStep_recover hx s.dec) hframe rest
  · obtain ⟨hpos, hle⟩ := DecState.bytesToRecover_bounds hmode
    rw [← hlen]
    exact exists_decFeedn_recovered hpos (hlen ▸ hle)

end Sys2Proof.Proofs
